-- ==== Sys2Proof/Word.lean ====
section
/-! DEFINITION. The word types of the machine (00_scope R10): a byte is 8 bits, a word (an address, the program
counter) 16 bits, and arithmetic on them is modulo 2^width. Fields, joins and sign extension are in Decode.lean. -/

namespace Sys2Proof

/-- A byte: 8 bits (R10). -/
abbrev Byte := BitVec 8

/-- A word: 16 bits (R10); every value is a valid address (R42, R100). -/
abbrev Word := BitVec 16

/-- A colour index 0..15 (62_video_chip, introduction), and a cell of colour memory (R53). -/
abbrev Colour := BitVec 4

end Sys2Proof
end

