-- ==== Sys2Proof/Syntax.lean ====
section
/-! DEFINITION. The instruction set as syntax (30_encoding R160 to R169): the addressing forms, the mnemonics, and `Instr`,
one constructor for each admitted row of spec/opcode_table.json (151 rows) and one, `illegal`, for the 105 rows whose
mnemonic is ILLEGAL (notes/assumptions/25.md). Operands are pulled out of their bytes by Decode.lean; an address operand is
the little-endian word of R162. -/

namespace Sys2Proof

/-- The addressing forms of R161, each with the operand its bytes hold: `imm` R170, `zp` R171, `zpx` and `zpy` R172,
`abs` R173, `absx` and `absy` R174, `indx` R175, `indy` R176, `ind` R177, `rel` R178, `acc` R179, `impl` R180, and BRK's
own (its signature byte is never read, R302, so it is no operand). -/
inductive Mode where
  | impl
  | acc
  | imm (v : Byte)
  | zp (z : Byte)
  | zpx (z : Byte)
  | zpy (z : Byte)
  | abs (a : Word)
  | absx (a : Word)
  | absy (a : Word)
  | ind (a : Word)
  | indx (z : Byte)
  | indy (z : Byte)
  | rel (d : Byte)
  | brk
  deriving DecidableEq, Repr

/-- The 57 mnemonics of spec/opcode_table.json: the 56 of R166 and ILLEGAL. -/
inductive Mnemonic where
  | lda
  | ldx
  | ldy
  | sta
  | stx
  | sty
  | tax
  | tay
  | txa
  | tya
  | tsx
  | txs
  | pha
  | php
  | pla
  | plp
  | adc
  | sbc
  | cmp
  | cpx
  | cpy
  | inc
  | dec
  | inx
  | iny
  | dex
  | dey
  | and
  | ora
  | eor
  | bit
  | asl
  | lsr
  | rol
  | ror
  | jmp
  | jsr
  | rts
  | bcc
  | bcs
  | beq
  | bmi
  | bne
  | bpl
  | bvc
  | bvs
  | brk
  | rti
  | nop
  | clc
  | cld
  | cli
  | clv
  | sec
  | sed
  | sei
  | illegal
  deriving DecidableEq, Repr

/-- The instructions: one constructor per row of spec/opcode_table.json. The comment of each gives the row's opcode byte. -/
inductive Instr where
  | ldaImm (v : Byte)  -- 0xA9
  | ldaZp (z : Byte)  -- 0xA5
  | ldaZpx (z : Byte)  -- 0xB5
  | ldaAbs (a : Word)  -- 0xAD
  | ldaAbsx (a : Word)  -- 0xBD
  | ldaAbsy (a : Word)  -- 0xB9
  | ldaIndx (z : Byte)  -- 0xA1
  | ldaIndy (z : Byte)  -- 0xB1
  | ldxImm (v : Byte)  -- 0xA2
  | ldxZp (z : Byte)  -- 0xA6
  | ldxZpy (z : Byte)  -- 0xB6
  | ldxAbs (a : Word)  -- 0xAE
  | ldxAbsy (a : Word)  -- 0xBE
  | ldyImm (v : Byte)  -- 0xA0
  | ldyZp (z : Byte)  -- 0xA4
  | ldyZpx (z : Byte)  -- 0xB4
  | ldyAbs (a : Word)  -- 0xAC
  | ldyAbsx (a : Word)  -- 0xBC
  | staZp (z : Byte)  -- 0x85
  | staZpx (z : Byte)  -- 0x95
  | staAbs (a : Word)  -- 0x8D
  | staAbsx (a : Word)  -- 0x9D
  | staAbsy (a : Word)  -- 0x99
  | staIndx (z : Byte)  -- 0x81
  | staIndy (z : Byte)  -- 0x91
  | stxZp (z : Byte)  -- 0x86
  | stxZpy (z : Byte)  -- 0x96
  | stxAbs (a : Word)  -- 0x8E
  | styZp (z : Byte)  -- 0x84
  | styZpx (z : Byte)  -- 0x94
  | styAbs (a : Word)  -- 0x8C
  | tax  -- 0xAA
  | tay  -- 0xA8
  | txa  -- 0x8A
  | tya  -- 0x98
  | tsx  -- 0xBA
  | txs  -- 0x9A
  | pha  -- 0x48
  | php  -- 0x08
  | pla  -- 0x68
  | plp  -- 0x28
  | adcImm (v : Byte)  -- 0x69
  | adcZp (z : Byte)  -- 0x65
  | adcZpx (z : Byte)  -- 0x75
  | adcAbs (a : Word)  -- 0x6D
  | adcAbsx (a : Word)  -- 0x7D
  | adcAbsy (a : Word)  -- 0x79
  | adcIndx (z : Byte)  -- 0x61
  | adcIndy (z : Byte)  -- 0x71
  | sbcImm (v : Byte)  -- 0xE9
  | sbcZp (z : Byte)  -- 0xE5
  | sbcZpx (z : Byte)  -- 0xF5
  | sbcAbs (a : Word)  -- 0xED
  | sbcAbsx (a : Word)  -- 0xFD
  | sbcAbsy (a : Word)  -- 0xF9
  | sbcIndx (z : Byte)  -- 0xE1
  | sbcIndy (z : Byte)  -- 0xF1
  | cmpImm (v : Byte)  -- 0xC9
  | cmpZp (z : Byte)  -- 0xC5
  | cmpZpx (z : Byte)  -- 0xD5
  | cmpAbs (a : Word)  -- 0xCD
  | cmpAbsx (a : Word)  -- 0xDD
  | cmpAbsy (a : Word)  -- 0xD9
  | cmpIndx (z : Byte)  -- 0xC1
  | cmpIndy (z : Byte)  -- 0xD1
  | cpxImm (v : Byte)  -- 0xE0
  | cpxZp (z : Byte)  -- 0xE4
  | cpxAbs (a : Word)  -- 0xEC
  | cpyImm (v : Byte)  -- 0xC0
  | cpyZp (z : Byte)  -- 0xC4
  | cpyAbs (a : Word)  -- 0xCC
  | incZp (z : Byte)  -- 0xE6
  | incZpx (z : Byte)  -- 0xF6
  | incAbs (a : Word)  -- 0xEE
  | incAbsx (a : Word)  -- 0xFE
  | decZp (z : Byte)  -- 0xC6
  | decZpx (z : Byte)  -- 0xD6
  | decAbs (a : Word)  -- 0xCE
  | decAbsx (a : Word)  -- 0xDE
  | inx  -- 0xE8
  | iny  -- 0xC8
  | dex  -- 0xCA
  | dey  -- 0x88
  | andImm (v : Byte)  -- 0x29
  | andZp (z : Byte)  -- 0x25
  | andZpx (z : Byte)  -- 0x35
  | andAbs (a : Word)  -- 0x2D
  | andAbsx (a : Word)  -- 0x3D
  | andAbsy (a : Word)  -- 0x39
  | andIndx (z : Byte)  -- 0x21
  | andIndy (z : Byte)  -- 0x31
  | oraImm (v : Byte)  -- 0x09
  | oraZp (z : Byte)  -- 0x05
  | oraZpx (z : Byte)  -- 0x15
  | oraAbs (a : Word)  -- 0x0D
  | oraAbsx (a : Word)  -- 0x1D
  | oraAbsy (a : Word)  -- 0x19
  | oraIndx (z : Byte)  -- 0x01
  | oraIndy (z : Byte)  -- 0x11
  | eorImm (v : Byte)  -- 0x49
  | eorZp (z : Byte)  -- 0x45
  | eorZpx (z : Byte)  -- 0x55
  | eorAbs (a : Word)  -- 0x4D
  | eorAbsx (a : Word)  -- 0x5D
  | eorAbsy (a : Word)  -- 0x59
  | eorIndx (z : Byte)  -- 0x41
  | eorIndy (z : Byte)  -- 0x51
  | bitZp (z : Byte)  -- 0x24
  | bitAbs (a : Word)  -- 0x2C
  | aslZp (z : Byte)  -- 0x06
  | aslZpx (z : Byte)  -- 0x16
  | aslAbs (a : Word)  -- 0x0E
  | aslAbsx (a : Word)  -- 0x1E
  | aslAcc  -- 0x0A
  | lsrZp (z : Byte)  -- 0x46
  | lsrZpx (z : Byte)  -- 0x56
  | lsrAbs (a : Word)  -- 0x4E
  | lsrAbsx (a : Word)  -- 0x5E
  | lsrAcc  -- 0x4A
  | rolZp (z : Byte)  -- 0x26
  | rolZpx (z : Byte)  -- 0x36
  | rolAbs (a : Word)  -- 0x2E
  | rolAbsx (a : Word)  -- 0x3E
  | rolAcc  -- 0x2A
  | rorZp (z : Byte)  -- 0x66
  | rorZpx (z : Byte)  -- 0x76
  | rorAbs (a : Word)  -- 0x6E
  | rorAbsx (a : Word)  -- 0x7E
  | rorAcc  -- 0x6A
  | jmpAbs (a : Word)  -- 0x4C
  | jmpInd (a : Word)  -- 0x6C
  | jsr (a : Word)  -- 0x20
  | rts  -- 0x60
  | bcc (d : Byte)  -- 0x90
  | bcs (d : Byte)  -- 0xB0
  | beq (d : Byte)  -- 0xF0
  | bmi (d : Byte)  -- 0x30
  | bne (d : Byte)  -- 0xD0
  | bpl (d : Byte)  -- 0x10
  | bvc (d : Byte)  -- 0x50
  | bvs (d : Byte)  -- 0x70
  | brk  -- 0x00
  | rti  -- 0x40
  | nop  -- 0xEA
  | clc  -- 0x18
  | cld  -- 0xD8
  | cli  -- 0x58
  | clv  -- 0xB8
  | sec  -- 0x38
  | sed  -- 0xF8
  | sei  -- 0x78
  /-- The 105 rows named ILLEGAL (R168): `op` is the byte that was fetched. -/
  | illegal (op : Byte)
  deriving DecidableEq, Repr

end Sys2Proof
end

