-- ==== Sys2Proof/WellFormed.lean ====
section
/-! DEFINITION. Which instruction terms stand for machine code (30_encoding R168, R169). Every operand value of an admitted
row is legal (R169), so the one check is on `illegal`: its byte is one of the 105 of R168. -/

namespace Sys2Proof

/-- The 105 illegal opcode bytes, as R168 lists them. -/
def illegalOpcodes : List Byte :=
  [0x02#8, 0x03#8, 0x04#8, 0x07#8, 0x0B#8, 0x0C#8, 0x0F#8, 0x12#8, 0x13#8, 0x14#8, 0x17#8, 0x1A#8, 0x1B#8, 0x1C#8, 0x1F#8] ++
  [0x22#8, 0x23#8, 0x27#8, 0x2B#8, 0x2F#8, 0x32#8, 0x33#8, 0x34#8, 0x37#8, 0x3A#8, 0x3B#8, 0x3C#8, 0x3F#8, 0x42#8, 0x43#8] ++
  [0x44#8, 0x47#8, 0x4B#8, 0x4F#8, 0x52#8, 0x53#8, 0x54#8, 0x57#8, 0x5A#8, 0x5B#8, 0x5C#8, 0x5F#8, 0x62#8, 0x63#8, 0x64#8] ++
  [0x67#8, 0x6B#8, 0x6F#8, 0x72#8, 0x73#8, 0x74#8, 0x77#8, 0x7A#8, 0x7B#8, 0x7C#8, 0x7F#8, 0x80#8, 0x82#8, 0x83#8, 0x87#8] ++
  [0x89#8, 0x8B#8, 0x8F#8, 0x92#8, 0x93#8, 0x97#8, 0x9B#8, 0x9C#8, 0x9E#8, 0x9F#8, 0xA3#8, 0xA7#8, 0xAB#8, 0xAF#8, 0xB2#8] ++
  [0xB3#8, 0xB7#8, 0xBB#8, 0xBF#8, 0xC2#8, 0xC3#8, 0xC7#8, 0xCB#8, 0xCF#8, 0xD2#8, 0xD3#8, 0xD4#8, 0xD7#8, 0xDA#8, 0xDB#8] ++
  [0xDC#8, 0xDF#8, 0xE2#8, 0xE3#8, 0xE7#8, 0xEB#8, 0xEF#8, 0xF2#8, 0xF3#8, 0xF4#8, 0xF7#8, 0xFA#8, 0xFB#8, 0xFC#8, 0xFF#8]

/-- An instruction term that some bytes stand for: an `illegal` term holds one of the bytes of R168. -/
def Instr.wellFormed : Instr → Bool
  | .illegal op => illegalOpcodes.contains op
  | .ldaImm _ => true
  | .ldaZp _ => true
  | .ldaZpx _ => true
  | .ldaAbs _ => true
  | .ldaAbsx _ => true
  | .ldaAbsy _ => true
  | .ldaIndx _ => true
  | .ldaIndy _ => true
  | .ldxImm _ => true
  | .ldxZp _ => true
  | .ldxZpy _ => true
  | .ldxAbs _ => true
  | .ldxAbsy _ => true
  | .ldyImm _ => true
  | .ldyZp _ => true
  | .ldyZpx _ => true
  | .ldyAbs _ => true
  | .ldyAbsx _ => true
  | .staZp _ => true
  | .staZpx _ => true
  | .staAbs _ => true
  | .staAbsx _ => true
  | .staAbsy _ => true
  | .staIndx _ => true
  | .staIndy _ => true
  | .stxZp _ => true
  | .stxZpy _ => true
  | .stxAbs _ => true
  | .styZp _ => true
  | .styZpx _ => true
  | .styAbs _ => true
  | .tax => true
  | .tay => true
  | .txa => true
  | .tya => true
  | .tsx => true
  | .txs => true
  | .pha => true
  | .php => true
  | .pla => true
  | .plp => true
  | .adcImm _ => true
  | .adcZp _ => true
  | .adcZpx _ => true
  | .adcAbs _ => true
  | .adcAbsx _ => true
  | .adcAbsy _ => true
  | .adcIndx _ => true
  | .adcIndy _ => true
  | .sbcImm _ => true
  | .sbcZp _ => true
  | .sbcZpx _ => true
  | .sbcAbs _ => true
  | .sbcAbsx _ => true
  | .sbcAbsy _ => true
  | .sbcIndx _ => true
  | .sbcIndy _ => true
  | .cmpImm _ => true
  | .cmpZp _ => true
  | .cmpZpx _ => true
  | .cmpAbs _ => true
  | .cmpAbsx _ => true
  | .cmpAbsy _ => true
  | .cmpIndx _ => true
  | .cmpIndy _ => true
  | .cpxImm _ => true
  | .cpxZp _ => true
  | .cpxAbs _ => true
  | .cpyImm _ => true
  | .cpyZp _ => true
  | .cpyAbs _ => true
  | .incZp _ => true
  | .incZpx _ => true
  | .incAbs _ => true
  | .incAbsx _ => true
  | .decZp _ => true
  | .decZpx _ => true
  | .decAbs _ => true
  | .decAbsx _ => true
  | .inx => true
  | .iny => true
  | .dex => true
  | .dey => true
  | .andImm _ => true
  | .andZp _ => true
  | .andZpx _ => true
  | .andAbs _ => true
  | .andAbsx _ => true
  | .andAbsy _ => true
  | .andIndx _ => true
  | .andIndy _ => true
  | .oraImm _ => true
  | .oraZp _ => true
  | .oraZpx _ => true
  | .oraAbs _ => true
  | .oraAbsx _ => true
  | .oraAbsy _ => true
  | .oraIndx _ => true
  | .oraIndy _ => true
  | .eorImm _ => true
  | .eorZp _ => true
  | .eorZpx _ => true
  | .eorAbs _ => true
  | .eorAbsx _ => true
  | .eorAbsy _ => true
  | .eorIndx _ => true
  | .eorIndy _ => true
  | .bitZp _ => true
  | .bitAbs _ => true
  | .aslZp _ => true
  | .aslZpx _ => true
  | .aslAbs _ => true
  | .aslAbsx _ => true
  | .aslAcc => true
  | .lsrZp _ => true
  | .lsrZpx _ => true
  | .lsrAbs _ => true
  | .lsrAbsx _ => true
  | .lsrAcc => true
  | .rolZp _ => true
  | .rolZpx _ => true
  | .rolAbs _ => true
  | .rolAbsx _ => true
  | .rolAcc => true
  | .rorZp _ => true
  | .rorZpx _ => true
  | .rorAbs _ => true
  | .rorAbsx _ => true
  | .rorAcc => true
  | .jmpAbs _ => true
  | .jmpInd _ => true
  | .jsr _ => true
  | .rts => true
  | .bcc _ => true
  | .bcs _ => true
  | .beq _ => true
  | .bmi _ => true
  | .bne _ => true
  | .bpl _ => true
  | .bvc _ => true
  | .bvs _ => true
  | .brk => true
  | .rti => true
  | .nop => true
  | .clc => true
  | .cld => true
  | .cli => true
  | .clv => true
  | .sec => true
  | .sed => true
  | .sei => true

end Sys2Proof
end

