-- ==== Sys2Proof/Decode.lean ====
section
/-! DEFINITION. Decoding and encoding (30_encoding R160 to R169). The opcode byte alone gives the instruction, its form and its
length (R160); operand words are little-endian (R162). `decodeBytes` is total; `decode` reads a list of bytes and refuses by
name a list that ends too soon. `encode` is written from the same table. -/

namespace Sys2Proof

/-- The word whose low byte is `lo` and high byte `hi` (R11, R162). -/
def wordOf (lo hi : Byte) : Word := hi ++ lo

/-- `lo(w)`, bits 7..0 (R11). -/
def loByte (w : Word) : Byte := w.extractLsb' 0 8

/-- `hi(w)`, bits 15..8 (R11). -/
def hiByte (w : Word) : Byte := w.extractLsb' 8 8

/-- `zext16(v)` (R12). -/
def zext16 (v : Byte) : Word := v.setWidth 16

/-- `sext16(v)` (R12). -/
def sext16 (v : Byte) : Word := v.signExtend 16

/-- How many bytes of an instruction the form occupies, opcode included (R161). -/
def Mode.length : Mode → Nat
  | .impl | .acc => 1
  | .imm _ | .zp _ | .zpx _ | .zpy _ | .indx _ | .indy _ | .rel _ | .brk => 2
  | .abs _ | .absx _ | .absy _ | .ind _ => 3

/-- The operand bytes of a form as they stand after the opcode (R161, R162). BRK's signature byte is written 0x00: it is
never read (R302; notes/assumptions/15.md). -/
def Mode.operandBytes : Mode → List Byte
  | .impl | .acc => []
  | .imm v | .zp v | .zpx v | .zpy v | .indx v | .indy v | .rel v => [v]
  | .brk => [0x00#8]
  | .abs a | .absx a | .absy a | .ind a => [loByte a, hiByte a]

/-- The addressing form of an instruction, with its operand: the column `mode` of the table of R167. -/
def Instr.mode : Instr → Mode
  | .ldaImm v => .imm v
  | .ldaZp z => .zp z
  | .ldaZpx z => .zpx z
  | .ldaAbs a => .abs a
  | .ldaAbsx a => .absx a
  | .ldaAbsy a => .absy a
  | .ldaIndx z => .indx z
  | .ldaIndy z => .indy z
  | .ldxImm v => .imm v
  | .ldxZp z => .zp z
  | .ldxZpy z => .zpy z
  | .ldxAbs a => .abs a
  | .ldxAbsy a => .absy a
  | .ldyImm v => .imm v
  | .ldyZp z => .zp z
  | .ldyZpx z => .zpx z
  | .ldyAbs a => .abs a
  | .ldyAbsx a => .absx a
  | .staZp z => .zp z
  | .staZpx z => .zpx z
  | .staAbs a => .abs a
  | .staAbsx a => .absx a
  | .staAbsy a => .absy a
  | .staIndx z => .indx z
  | .staIndy z => .indy z
  | .stxZp z => .zp z
  | .stxZpy z => .zpy z
  | .stxAbs a => .abs a
  | .styZp z => .zp z
  | .styZpx z => .zpx z
  | .styAbs a => .abs a
  | .tax => .impl
  | .tay => .impl
  | .txa => .impl
  | .tya => .impl
  | .tsx => .impl
  | .txs => .impl
  | .pha => .impl
  | .php => .impl
  | .pla => .impl
  | .plp => .impl
  | .adcImm v => .imm v
  | .adcZp z => .zp z
  | .adcZpx z => .zpx z
  | .adcAbs a => .abs a
  | .adcAbsx a => .absx a
  | .adcAbsy a => .absy a
  | .adcIndx z => .indx z
  | .adcIndy z => .indy z
  | .sbcImm v => .imm v
  | .sbcZp z => .zp z
  | .sbcZpx z => .zpx z
  | .sbcAbs a => .abs a
  | .sbcAbsx a => .absx a
  | .sbcAbsy a => .absy a
  | .sbcIndx z => .indx z
  | .sbcIndy z => .indy z
  | .cmpImm v => .imm v
  | .cmpZp z => .zp z
  | .cmpZpx z => .zpx z
  | .cmpAbs a => .abs a
  | .cmpAbsx a => .absx a
  | .cmpAbsy a => .absy a
  | .cmpIndx z => .indx z
  | .cmpIndy z => .indy z
  | .cpxImm v => .imm v
  | .cpxZp z => .zp z
  | .cpxAbs a => .abs a
  | .cpyImm v => .imm v
  | .cpyZp z => .zp z
  | .cpyAbs a => .abs a
  | .incZp z => .zp z
  | .incZpx z => .zpx z
  | .incAbs a => .abs a
  | .incAbsx a => .absx a
  | .decZp z => .zp z
  | .decZpx z => .zpx z
  | .decAbs a => .abs a
  | .decAbsx a => .absx a
  | .inx => .impl
  | .iny => .impl
  | .dex => .impl
  | .dey => .impl
  | .andImm v => .imm v
  | .andZp z => .zp z
  | .andZpx z => .zpx z
  | .andAbs a => .abs a
  | .andAbsx a => .absx a
  | .andAbsy a => .absy a
  | .andIndx z => .indx z
  | .andIndy z => .indy z
  | .oraImm v => .imm v
  | .oraZp z => .zp z
  | .oraZpx z => .zpx z
  | .oraAbs a => .abs a
  | .oraAbsx a => .absx a
  | .oraAbsy a => .absy a
  | .oraIndx z => .indx z
  | .oraIndy z => .indy z
  | .eorImm v => .imm v
  | .eorZp z => .zp z
  | .eorZpx z => .zpx z
  | .eorAbs a => .abs a
  | .eorAbsx a => .absx a
  | .eorAbsy a => .absy a
  | .eorIndx z => .indx z
  | .eorIndy z => .indy z
  | .bitZp z => .zp z
  | .bitAbs a => .abs a
  | .aslZp z => .zp z
  | .aslZpx z => .zpx z
  | .aslAbs a => .abs a
  | .aslAbsx a => .absx a
  | .aslAcc => .acc
  | .lsrZp z => .zp z
  | .lsrZpx z => .zpx z
  | .lsrAbs a => .abs a
  | .lsrAbsx a => .absx a
  | .lsrAcc => .acc
  | .rolZp z => .zp z
  | .rolZpx z => .zpx z
  | .rolAbs a => .abs a
  | .rolAbsx a => .absx a
  | .rolAcc => .acc
  | .rorZp z => .zp z
  | .rorZpx z => .zpx z
  | .rorAbs a => .abs a
  | .rorAbsx a => .absx a
  | .rorAcc => .acc
  | .jmpAbs a => .abs a
  | .jmpInd a => .ind a
  | .jsr a => .abs a
  | .rts => .impl
  | .bcc d => .rel d
  | .bcs d => .rel d
  | .beq d => .rel d
  | .bmi d => .rel d
  | .bne d => .rel d
  | .bpl d => .rel d
  | .bvc d => .rel d
  | .bvs d => .rel d
  | .brk => .brk
  | .rti => .impl
  | .nop => .impl
  | .clc => .impl
  | .cld => .impl
  | .cli => .impl
  | .clv => .impl
  | .sec => .impl
  | .sed => .impl
  | .sei => .impl
  | .illegal _ => .impl

/-- The mnemonic of an instruction: the row's mnemonic in spec/opcode_table.json. -/
def Instr.mnemonic : Instr → Mnemonic
  | .ldaImm _ => .lda
  | .ldaZp _ => .lda
  | .ldaZpx _ => .lda
  | .ldaAbs _ => .lda
  | .ldaAbsx _ => .lda
  | .ldaAbsy _ => .lda
  | .ldaIndx _ => .lda
  | .ldaIndy _ => .lda
  | .ldxImm _ => .ldx
  | .ldxZp _ => .ldx
  | .ldxZpy _ => .ldx
  | .ldxAbs _ => .ldx
  | .ldxAbsy _ => .ldx
  | .ldyImm _ => .ldy
  | .ldyZp _ => .ldy
  | .ldyZpx _ => .ldy
  | .ldyAbs _ => .ldy
  | .ldyAbsx _ => .ldy
  | .staZp _ => .sta
  | .staZpx _ => .sta
  | .staAbs _ => .sta
  | .staAbsx _ => .sta
  | .staAbsy _ => .sta
  | .staIndx _ => .sta
  | .staIndy _ => .sta
  | .stxZp _ => .stx
  | .stxZpy _ => .stx
  | .stxAbs _ => .stx
  | .styZp _ => .sty
  | .styZpx _ => .sty
  | .styAbs _ => .sty
  | .tax => .tax
  | .tay => .tay
  | .txa => .txa
  | .tya => .tya
  | .tsx => .tsx
  | .txs => .txs
  | .pha => .pha
  | .php => .php
  | .pla => .pla
  | .plp => .plp
  | .adcImm _ => .adc
  | .adcZp _ => .adc
  | .adcZpx _ => .adc
  | .adcAbs _ => .adc
  | .adcAbsx _ => .adc
  | .adcAbsy _ => .adc
  | .adcIndx _ => .adc
  | .adcIndy _ => .adc
  | .sbcImm _ => .sbc
  | .sbcZp _ => .sbc
  | .sbcZpx _ => .sbc
  | .sbcAbs _ => .sbc
  | .sbcAbsx _ => .sbc
  | .sbcAbsy _ => .sbc
  | .sbcIndx _ => .sbc
  | .sbcIndy _ => .sbc
  | .cmpImm _ => .cmp
  | .cmpZp _ => .cmp
  | .cmpZpx _ => .cmp
  | .cmpAbs _ => .cmp
  | .cmpAbsx _ => .cmp
  | .cmpAbsy _ => .cmp
  | .cmpIndx _ => .cmp
  | .cmpIndy _ => .cmp
  | .cpxImm _ => .cpx
  | .cpxZp _ => .cpx
  | .cpxAbs _ => .cpx
  | .cpyImm _ => .cpy
  | .cpyZp _ => .cpy
  | .cpyAbs _ => .cpy
  | .incZp _ => .inc
  | .incZpx _ => .inc
  | .incAbs _ => .inc
  | .incAbsx _ => .inc
  | .decZp _ => .dec
  | .decZpx _ => .dec
  | .decAbs _ => .dec
  | .decAbsx _ => .dec
  | .inx => .inx
  | .iny => .iny
  | .dex => .dex
  | .dey => .dey
  | .andImm _ => .and
  | .andZp _ => .and
  | .andZpx _ => .and
  | .andAbs _ => .and
  | .andAbsx _ => .and
  | .andAbsy _ => .and
  | .andIndx _ => .and
  | .andIndy _ => .and
  | .oraImm _ => .ora
  | .oraZp _ => .ora
  | .oraZpx _ => .ora
  | .oraAbs _ => .ora
  | .oraAbsx _ => .ora
  | .oraAbsy _ => .ora
  | .oraIndx _ => .ora
  | .oraIndy _ => .ora
  | .eorImm _ => .eor
  | .eorZp _ => .eor
  | .eorZpx _ => .eor
  | .eorAbs _ => .eor
  | .eorAbsx _ => .eor
  | .eorAbsy _ => .eor
  | .eorIndx _ => .eor
  | .eorIndy _ => .eor
  | .bitZp _ => .bit
  | .bitAbs _ => .bit
  | .aslZp _ => .asl
  | .aslZpx _ => .asl
  | .aslAbs _ => .asl
  | .aslAbsx _ => .asl
  | .aslAcc => .asl
  | .lsrZp _ => .lsr
  | .lsrZpx _ => .lsr
  | .lsrAbs _ => .lsr
  | .lsrAbsx _ => .lsr
  | .lsrAcc => .lsr
  | .rolZp _ => .rol
  | .rolZpx _ => .rol
  | .rolAbs _ => .rol
  | .rolAbsx _ => .rol
  | .rolAcc => .rol
  | .rorZp _ => .ror
  | .rorZpx _ => .ror
  | .rorAbs _ => .ror
  | .rorAbsx _ => .ror
  | .rorAcc => .ror
  | .jmpAbs _ => .jmp
  | .jmpInd _ => .jmp
  | .jsr _ => .jsr
  | .rts => .rts
  | .bcc _ => .bcc
  | .bcs _ => .bcs
  | .beq _ => .beq
  | .bmi _ => .bmi
  | .bne _ => .bne
  | .bpl _ => .bpl
  | .bvc _ => .bvc
  | .bvs _ => .bvs
  | .brk => .brk
  | .rti => .rti
  | .nop => .nop
  | .clc => .clc
  | .cld => .cld
  | .cli => .cli
  | .clv => .clv
  | .sec => .sec
  | .sed => .sed
  | .sei => .sei
  | .illegal _ => .illegal

/-- The opcode byte of an instruction (R166, R167). -/
def Instr.opcode : Instr → Byte
  | .ldaImm _ => 0xA9#8
  | .ldaZp _ => 0xA5#8
  | .ldaZpx _ => 0xB5#8
  | .ldaAbs _ => 0xAD#8
  | .ldaAbsx _ => 0xBD#8
  | .ldaAbsy _ => 0xB9#8
  | .ldaIndx _ => 0xA1#8
  | .ldaIndy _ => 0xB1#8
  | .ldxImm _ => 0xA2#8
  | .ldxZp _ => 0xA6#8
  | .ldxZpy _ => 0xB6#8
  | .ldxAbs _ => 0xAE#8
  | .ldxAbsy _ => 0xBE#8
  | .ldyImm _ => 0xA0#8
  | .ldyZp _ => 0xA4#8
  | .ldyZpx _ => 0xB4#8
  | .ldyAbs _ => 0xAC#8
  | .ldyAbsx _ => 0xBC#8
  | .staZp _ => 0x85#8
  | .staZpx _ => 0x95#8
  | .staAbs _ => 0x8D#8
  | .staAbsx _ => 0x9D#8
  | .staAbsy _ => 0x99#8
  | .staIndx _ => 0x81#8
  | .staIndy _ => 0x91#8
  | .stxZp _ => 0x86#8
  | .stxZpy _ => 0x96#8
  | .stxAbs _ => 0x8E#8
  | .styZp _ => 0x84#8
  | .styZpx _ => 0x94#8
  | .styAbs _ => 0x8C#8
  | .tax => 0xAA#8
  | .tay => 0xA8#8
  | .txa => 0x8A#8
  | .tya => 0x98#8
  | .tsx => 0xBA#8
  | .txs => 0x9A#8
  | .pha => 0x48#8
  | .php => 0x08#8
  | .pla => 0x68#8
  | .plp => 0x28#8
  | .adcImm _ => 0x69#8
  | .adcZp _ => 0x65#8
  | .adcZpx _ => 0x75#8
  | .adcAbs _ => 0x6D#8
  | .adcAbsx _ => 0x7D#8
  | .adcAbsy _ => 0x79#8
  | .adcIndx _ => 0x61#8
  | .adcIndy _ => 0x71#8
  | .sbcImm _ => 0xE9#8
  | .sbcZp _ => 0xE5#8
  | .sbcZpx _ => 0xF5#8
  | .sbcAbs _ => 0xED#8
  | .sbcAbsx _ => 0xFD#8
  | .sbcAbsy _ => 0xF9#8
  | .sbcIndx _ => 0xE1#8
  | .sbcIndy _ => 0xF1#8
  | .cmpImm _ => 0xC9#8
  | .cmpZp _ => 0xC5#8
  | .cmpZpx _ => 0xD5#8
  | .cmpAbs _ => 0xCD#8
  | .cmpAbsx _ => 0xDD#8
  | .cmpAbsy _ => 0xD9#8
  | .cmpIndx _ => 0xC1#8
  | .cmpIndy _ => 0xD1#8
  | .cpxImm _ => 0xE0#8
  | .cpxZp _ => 0xE4#8
  | .cpxAbs _ => 0xEC#8
  | .cpyImm _ => 0xC0#8
  | .cpyZp _ => 0xC4#8
  | .cpyAbs _ => 0xCC#8
  | .incZp _ => 0xE6#8
  | .incZpx _ => 0xF6#8
  | .incAbs _ => 0xEE#8
  | .incAbsx _ => 0xFE#8
  | .decZp _ => 0xC6#8
  | .decZpx _ => 0xD6#8
  | .decAbs _ => 0xCE#8
  | .decAbsx _ => 0xDE#8
  | .inx => 0xE8#8
  | .iny => 0xC8#8
  | .dex => 0xCA#8
  | .dey => 0x88#8
  | .andImm _ => 0x29#8
  | .andZp _ => 0x25#8
  | .andZpx _ => 0x35#8
  | .andAbs _ => 0x2D#8
  | .andAbsx _ => 0x3D#8
  | .andAbsy _ => 0x39#8
  | .andIndx _ => 0x21#8
  | .andIndy _ => 0x31#8
  | .oraImm _ => 0x09#8
  | .oraZp _ => 0x05#8
  | .oraZpx _ => 0x15#8
  | .oraAbs _ => 0x0D#8
  | .oraAbsx _ => 0x1D#8
  | .oraAbsy _ => 0x19#8
  | .oraIndx _ => 0x01#8
  | .oraIndy _ => 0x11#8
  | .eorImm _ => 0x49#8
  | .eorZp _ => 0x45#8
  | .eorZpx _ => 0x55#8
  | .eorAbs _ => 0x4D#8
  | .eorAbsx _ => 0x5D#8
  | .eorAbsy _ => 0x59#8
  | .eorIndx _ => 0x41#8
  | .eorIndy _ => 0x51#8
  | .bitZp _ => 0x24#8
  | .bitAbs _ => 0x2C#8
  | .aslZp _ => 0x06#8
  | .aslZpx _ => 0x16#8
  | .aslAbs _ => 0x0E#8
  | .aslAbsx _ => 0x1E#8
  | .aslAcc => 0x0A#8
  | .lsrZp _ => 0x46#8
  | .lsrZpx _ => 0x56#8
  | .lsrAbs _ => 0x4E#8
  | .lsrAbsx _ => 0x5E#8
  | .lsrAcc => 0x4A#8
  | .rolZp _ => 0x26#8
  | .rolZpx _ => 0x36#8
  | .rolAbs _ => 0x2E#8
  | .rolAbsx _ => 0x3E#8
  | .rolAcc => 0x2A#8
  | .rorZp _ => 0x66#8
  | .rorZpx _ => 0x76#8
  | .rorAbs _ => 0x6E#8
  | .rorAbsx _ => 0x7E#8
  | .rorAcc => 0x6A#8
  | .jmpAbs _ => 0x4C#8
  | .jmpInd _ => 0x6C#8
  | .jsr _ => 0x20#8
  | .rts => 0x60#8
  | .bcc _ => 0x90#8
  | .bcs _ => 0xB0#8
  | .beq _ => 0xF0#8
  | .bmi _ => 0x30#8
  | .bne _ => 0xD0#8
  | .bpl _ => 0x10#8
  | .bvc _ => 0x50#8
  | .bvs _ => 0x70#8
  | .brk => 0x00#8
  | .rti => 0x40#8
  | .nop => 0xEA#8
  | .clc => 0x18#8
  | .cld => 0xD8#8
  | .cli => 0x58#8
  | .clv => 0xB8#8
  | .sec => 0x38#8
  | .sed => 0xF8#8
  | .sei => 0x78#8
  | .illegal op => op

/-- The length of an instruction in bytes (R161). -/
def Instr.length (i : Instr) : Nat := i.mode.length

/-- Row 0 of the opcode map (R166): the opcodes 0x00 to 0x0F, by their low nibble `n`; the rest are illegal (R168). -/
def decodeRow0 (n : Nat) (op b1 b2 : Byte) : Instr :=
  match n with
  | 0x0 => .brk
  | 0x1 => .oraIndx b1
  | 0x5 => .oraZp b1
  | 0x6 => .aslZp b1
  | 0x8 => .php
  | 0x9 => .oraImm b1
  | 0xA => .aslAcc
  | 0xD => .oraAbs (wordOf b1 b2)
  | 0xE => .aslAbs (wordOf b1 b2)
  | _ => .illegal op

/-- Row 1 of the opcode map (R166): the opcodes 0x10 to 0x1F, by their low nibble `n`; the rest are illegal (R168). -/
def decodeRow1 (n : Nat) (op b1 b2 : Byte) : Instr :=
  match n with
  | 0x0 => .bpl b1
  | 0x1 => .oraIndy b1
  | 0x5 => .oraZpx b1
  | 0x6 => .aslZpx b1
  | 0x8 => .clc
  | 0x9 => .oraAbsy (wordOf b1 b2)
  | 0xD => .oraAbsx (wordOf b1 b2)
  | 0xE => .aslAbsx (wordOf b1 b2)
  | _ => .illegal op

/-- Row 2 of the opcode map (R166): the opcodes 0x20 to 0x2F, by their low nibble `n`; the rest are illegal (R168). -/
def decodeRow2 (n : Nat) (op b1 b2 : Byte) : Instr :=
  match n with
  | 0x0 => .jsr (wordOf b1 b2)
  | 0x1 => .andIndx b1
  | 0x4 => .bitZp b1
  | 0x5 => .andZp b1
  | 0x6 => .rolZp b1
  | 0x8 => .plp
  | 0x9 => .andImm b1
  | 0xA => .rolAcc
  | 0xC => .bitAbs (wordOf b1 b2)
  | 0xD => .andAbs (wordOf b1 b2)
  | 0xE => .rolAbs (wordOf b1 b2)
  | _ => .illegal op

/-- Row 3 of the opcode map (R166): the opcodes 0x30 to 0x3F, by their low nibble `n`; the rest are illegal (R168). -/
def decodeRow3 (n : Nat) (op b1 b2 : Byte) : Instr :=
  match n with
  | 0x0 => .bmi b1
  | 0x1 => .andIndy b1
  | 0x5 => .andZpx b1
  | 0x6 => .rolZpx b1
  | 0x8 => .sec
  | 0x9 => .andAbsy (wordOf b1 b2)
  | 0xD => .andAbsx (wordOf b1 b2)
  | 0xE => .rolAbsx (wordOf b1 b2)
  | _ => .illegal op

/-- Row 4 of the opcode map (R166): the opcodes 0x40 to 0x4F, by their low nibble `n`; the rest are illegal (R168). -/
def decodeRow4 (n : Nat) (op b1 b2 : Byte) : Instr :=
  match n with
  | 0x0 => .rti
  | 0x1 => .eorIndx b1
  | 0x5 => .eorZp b1
  | 0x6 => .lsrZp b1
  | 0x8 => .pha
  | 0x9 => .eorImm b1
  | 0xA => .lsrAcc
  | 0xC => .jmpAbs (wordOf b1 b2)
  | 0xD => .eorAbs (wordOf b1 b2)
  | 0xE => .lsrAbs (wordOf b1 b2)
  | _ => .illegal op

/-- Row 5 of the opcode map (R166): the opcodes 0x50 to 0x5F, by their low nibble `n`; the rest are illegal (R168). -/
def decodeRow5 (n : Nat) (op b1 b2 : Byte) : Instr :=
  match n with
  | 0x0 => .bvc b1
  | 0x1 => .eorIndy b1
  | 0x5 => .eorZpx b1
  | 0x6 => .lsrZpx b1
  | 0x8 => .cli
  | 0x9 => .eorAbsy (wordOf b1 b2)
  | 0xD => .eorAbsx (wordOf b1 b2)
  | 0xE => .lsrAbsx (wordOf b1 b2)
  | _ => .illegal op

/-- Row 6 of the opcode map (R166): the opcodes 0x60 to 0x6F, by their low nibble `n`; the rest are illegal (R168). -/
def decodeRow6 (n : Nat) (op b1 b2 : Byte) : Instr :=
  match n with
  | 0x0 => .rts
  | 0x1 => .adcIndx b1
  | 0x5 => .adcZp b1
  | 0x6 => .rorZp b1
  | 0x8 => .pla
  | 0x9 => .adcImm b1
  | 0xA => .rorAcc
  | 0xC => .jmpInd (wordOf b1 b2)
  | 0xD => .adcAbs (wordOf b1 b2)
  | 0xE => .rorAbs (wordOf b1 b2)
  | _ => .illegal op

/-- Row 7 of the opcode map (R166): the opcodes 0x70 to 0x7F, by their low nibble `n`; the rest are illegal (R168). -/
def decodeRow7 (n : Nat) (op b1 b2 : Byte) : Instr :=
  match n with
  | 0x0 => .bvs b1
  | 0x1 => .adcIndy b1
  | 0x5 => .adcZpx b1
  | 0x6 => .rorZpx b1
  | 0x8 => .sei
  | 0x9 => .adcAbsy (wordOf b1 b2)
  | 0xD => .adcAbsx (wordOf b1 b2)
  | 0xE => .rorAbsx (wordOf b1 b2)
  | _ => .illegal op

/-- Row 8 of the opcode map (R166): the opcodes 0x80 to 0x8F, by their low nibble `n`; the rest are illegal (R168). -/
def decodeRow8 (n : Nat) (op b1 b2 : Byte) : Instr :=
  match n with
  | 0x1 => .staIndx b1
  | 0x4 => .styZp b1
  | 0x5 => .staZp b1
  | 0x6 => .stxZp b1
  | 0x8 => .dey
  | 0xA => .txa
  | 0xC => .styAbs (wordOf b1 b2)
  | 0xD => .staAbs (wordOf b1 b2)
  | 0xE => .stxAbs (wordOf b1 b2)
  | _ => .illegal op

/-- Row 9 of the opcode map (R166): the opcodes 0x90 to 0x9F, by their low nibble `n`; the rest are illegal (R168). -/
def decodeRow9 (n : Nat) (op b1 b2 : Byte) : Instr :=
  match n with
  | 0x0 => .bcc b1
  | 0x1 => .staIndy b1
  | 0x4 => .styZpx b1
  | 0x5 => .staZpx b1
  | 0x6 => .stxZpy b1
  | 0x8 => .tya
  | 0x9 => .staAbsy (wordOf b1 b2)
  | 0xA => .txs
  | 0xD => .staAbsx (wordOf b1 b2)
  | _ => .illegal op

/-- Row A of the opcode map (R166): the opcodes 0xA0 to 0xAF, by their low nibble `n`; the rest are illegal (R168). -/
def decodeRowA (n : Nat) (op b1 b2 : Byte) : Instr :=
  match n with
  | 0x0 => .ldyImm b1
  | 0x1 => .ldaIndx b1
  | 0x2 => .ldxImm b1
  | 0x4 => .ldyZp b1
  | 0x5 => .ldaZp b1
  | 0x6 => .ldxZp b1
  | 0x8 => .tay
  | 0x9 => .ldaImm b1
  | 0xA => .tax
  | 0xC => .ldyAbs (wordOf b1 b2)
  | 0xD => .ldaAbs (wordOf b1 b2)
  | 0xE => .ldxAbs (wordOf b1 b2)
  | _ => .illegal op

/-- Row B of the opcode map (R166): the opcodes 0xB0 to 0xBF, by their low nibble `n`; the rest are illegal (R168). -/
def decodeRowB (n : Nat) (op b1 b2 : Byte) : Instr :=
  match n with
  | 0x0 => .bcs b1
  | 0x1 => .ldaIndy b1
  | 0x4 => .ldyZpx b1
  | 0x5 => .ldaZpx b1
  | 0x6 => .ldxZpy b1
  | 0x8 => .clv
  | 0x9 => .ldaAbsy (wordOf b1 b2)
  | 0xA => .tsx
  | 0xC => .ldyAbsx (wordOf b1 b2)
  | 0xD => .ldaAbsx (wordOf b1 b2)
  | 0xE => .ldxAbsy (wordOf b1 b2)
  | _ => .illegal op

/-- Row C of the opcode map (R166): the opcodes 0xC0 to 0xCF, by their low nibble `n`; the rest are illegal (R168). -/
def decodeRowC (n : Nat) (op b1 b2 : Byte) : Instr :=
  match n with
  | 0x0 => .cpyImm b1
  | 0x1 => .cmpIndx b1
  | 0x4 => .cpyZp b1
  | 0x5 => .cmpZp b1
  | 0x6 => .decZp b1
  | 0x8 => .iny
  | 0x9 => .cmpImm b1
  | 0xA => .dex
  | 0xC => .cpyAbs (wordOf b1 b2)
  | 0xD => .cmpAbs (wordOf b1 b2)
  | 0xE => .decAbs (wordOf b1 b2)
  | _ => .illegal op

/-- Row D of the opcode map (R166): the opcodes 0xD0 to 0xDF, by their low nibble `n`; the rest are illegal (R168). -/
def decodeRowD (n : Nat) (op b1 b2 : Byte) : Instr :=
  match n with
  | 0x0 => .bne b1
  | 0x1 => .cmpIndy b1
  | 0x5 => .cmpZpx b1
  | 0x6 => .decZpx b1
  | 0x8 => .cld
  | 0x9 => .cmpAbsy (wordOf b1 b2)
  | 0xD => .cmpAbsx (wordOf b1 b2)
  | 0xE => .decAbsx (wordOf b1 b2)
  | _ => .illegal op

/-- Row E of the opcode map (R166): the opcodes 0xE0 to 0xEF, by their low nibble `n`; the rest are illegal (R168). -/
def decodeRowE (n : Nat) (op b1 b2 : Byte) : Instr :=
  match n with
  | 0x0 => .cpxImm b1
  | 0x1 => .sbcIndx b1
  | 0x4 => .cpxZp b1
  | 0x5 => .sbcZp b1
  | 0x6 => .incZp b1
  | 0x8 => .inx
  | 0x9 => .sbcImm b1
  | 0xA => .nop
  | 0xC => .cpxAbs (wordOf b1 b2)
  | 0xD => .sbcAbs (wordOf b1 b2)
  | 0xE => .incAbs (wordOf b1 b2)
  | _ => .illegal op

/-- Row F of the opcode map (R166): the opcodes 0xF0 to 0xFF, by their low nibble `n`; the rest are illegal (R168). -/
def decodeRowF (n : Nat) (op b1 b2 : Byte) : Instr :=
  match n with
  | 0x0 => .beq b1
  | 0x1 => .sbcIndy b1
  | 0x5 => .sbcZpx b1
  | 0x6 => .incZpx b1
  | 0x8 => .sed
  | 0x9 => .sbcAbsy (wordOf b1 b2)
  | 0xD => .sbcAbsx (wordOf b1 b2)
  | 0xE => .incAbsx (wordOf b1 b2)
  | _ => .illegal op

/-- The instruction at three consecutive bytes (R160, R166, R168): the opcode and the two that follow it, of which a shorter
form uses fewer. -/
def decodeBytes (op b1 b2 : Byte) : Instr :=
  let n := op.toNat % 16
  match op.toNat / 16 with
  | 0x0 => decodeRow0 n op b1 b2
  | 0x1 => decodeRow1 n op b1 b2
  | 0x2 => decodeRow2 n op b1 b2
  | 0x3 => decodeRow3 n op b1 b2
  | 0x4 => decodeRow4 n op b1 b2
  | 0x5 => decodeRow5 n op b1 b2
  | 0x6 => decodeRow6 n op b1 b2
  | 0x7 => decodeRow7 n op b1 b2
  | 0x8 => decodeRow8 n op b1 b2
  | 0x9 => decodeRow9 n op b1 b2
  | 0xA => decodeRowA n op b1 b2
  | 0xB => decodeRowB n op b1 b2
  | 0xC => decodeRowC n op b1 b2
  | 0xD => decodeRowD n op b1 b2
  | 0xE => decodeRowE n op b1 b2
  | _ => decodeRowF n op b1 b2

/-- How many operand bytes the fetch reads after an opcode byte (R163): the form's length less one, but none for BRK, whose
signature byte is skipped and never read (R302), and none for an illegal byte (R410). -/
def operandCount (op : Byte) : Nat :=
  match (decodeBytes op 0 0).mode with
  | .brk => 0
  | m => m.length - 1

/-- Why a list of bytes holds no whole instruction. -/
inductive DecodeError where
  /-- There is no opcode byte. -/
  | empty
  /-- The list ends before the instruction that `op` begins. -/
  | truncated (op : Byte)
  deriving DecidableEq, Repr

/-- The instruction at the head of a list of bytes, and the bytes after it (R160 to R162). An illegal opcode is the
instruction `illegal`, one byte long (R168). -/
def decode (bytes : List Byte) : Except DecodeError (Instr × List Byte) :=
  match bytes with
  | [] => .error .empty
  | op :: rest =>
    let i := decodeBytes op (rest.getD 0 0) (rest.getD 1 0)
    if rest.length + 1 < i.length then .error (.truncated op) else .ok (i, rest.drop (i.length - 1))

/-- The bytes of an instruction: its opcode, then its operand bytes, low byte first (R161, R162). -/
def encode (i : Instr) : List Byte := i.opcode :: i.mode.operandBytes

/-- The three bytes of an instruction word `w` numbered as spec/opcode_table.json numbers it: the first byte is bits 7..0,
the second bits 15..8, the third bits 23..16. -/
def tableBytes (nbits w : Nat) : List Byte :=
  let w := w % 2 ^ nbits
  [BitVec.ofNat 8 w, BitVec.ofNat 8 (w / 256), BitVec.ofNat 8 (w / 65536)]

/-- What the decoder reads from an instruction whose bits are `w`, every bit from `nbits` up being 0. -/
def decodeTableWord (nbits w : Nat) : Option Instr :=
  match decode (tableBytes nbits w) with
  | .ok (i, _) => some i
  | .error _ => none

end Sys2Proof
end

