-- ==== Sys2Proof/Config.lean ====
section
/-! DEFINITION. What the machine is configured with (00_scope R9, 93_implementation_defined). Two kinds of thing stand here.
(1) The types of the parameters that are plain data: the state holds one value `Params` of them in a field no step writes, so
a claim about every state is a claim about every parameter value (notes/assumptions/6.md); their default values are in
Machine/Defaults.lean. (2) The free values: constants with no body, of which nothing can be proved, so that what holds of
them holds of every value: the draws of R16 and the OPEN functions and sizes of R9 that have no default
(notes/assumptions/5.md, notes/assumptions/7.md). -/

namespace Sys2Proof

/-- Which regions a bank mode shows: one row of the bank truth table (R102). -/
structure BankRow where
  basic : Bool
  kernal : Bool
  io : Bool
  char : Bool
  deriving DecidableEq, Repr

/-- The 8-entry bank truth table `BANK_TABLE` (R102), a row for each bank mode. -/
structure BankTable where
  row0 : BankRow
  row1 : BankRow
  row2 : BankRow
  row3 : BankRow
  row4 : BankRow
  row5 : BankRow
  row6 : BankRow
  row7 : BankRow
  deriving DecidableEq, Repr

/-- `DECIMAL_MODEL` (R241, D4): the spec gives one model. -/
inductive DecimalModel where
  | nmos
  deriving DecidableEq, Repr

/-- A target of `SID_MAP` (R705): a chip instance 0..2 and a register 0x00..0x1F. -/
structure SidTarget where
  chip : Fin 3
  reg : BitVec 5
  deriving DecidableEq, Repr

/-- `SID_MODEL` of an instance (R9, R740). -/
inductive SidModel where
  | m6581
  | m8580
  deriving DecidableEq, Repr, Inhabited

/-- The parameters of R9 that are plain data. -/
structure Params where
  /-- `BASIC_ROM` (R51) as (offset, byte) pairs; an offset not listed holds 0x00 (notes/assumptions/4.md). -/
  basicRom : List Host.Cell
  /-- `KERNAL_ROM` (R51), likewise. -/
  kernalRom : List Host.Cell
  /-- `CHAR_ROM` (R51), likewise. -/
  charRom : List Host.Cell
  /-- `BANK_TABLE` (R102). -/
  bankTable : BankTable
  /-- `SID_MAP` (R705): the target of each window offset; an offset past the list's end has the default target. -/
  sidMap : List SidTarget
  /-- `CYCLE_TABLE` (R164, R830): the base cycles of each opcode byte. -/
  cycleTable : List Nat
  /-- `DECIMAL_MODEL` (R241). -/
  decimalModel : DecimalModel
  /-- `RMW_DUMMY_WRITE` (R278). -/
  rmwDummyWrite : Bool
  /-- `JMP_IND_PAGE_WRAP` (R177). -/
  jmpIndPageWrap : Bool
  /-- `RESET_BANK_BYTE` (R52). -/
  resetBankByte : Byte
  /-- `RESET_ON_HALT` (R411). -/
  resetOnHalt : Bool
  /-- `LINE_CYCLES` (R440, R720). -/
  lineCycles : Nat
  /-- `BADLINE_CYCLES` (R632). -/
  badlineCycles : Nat
  /-- `CIA_SPLIT` (R440). -/
  ciaSplit : Nat
  /-- `CPU_HZ` (R720). -/
  cpuHz : Nat
  /-- `SAVE_START_PTR` (R465). -/
  saveStartPtr : Word
  /-- `SAVE_END_PTR` (R465). -/
  saveEndPtr : Word
  deriving DecidableEq, Repr

/-- The free values (R16): draw number `n` of a run. Nothing is known of it. -/
opaque Config.freeByte (n : Nat) : Byte

/-- What the pixel of frame row `y`, column `x` holds until the row is drawn: a draw (I12). -/
opaque Config.freePixel (y x : Nat) : Colour

/-- What the border entry of raster line `r` holds until it is drawn: a draw (I12). -/
opaque Config.freeBorder (r : Nat) : Colour

/-- `SAMPLE_RATE`, OPEN (R9, R720). -/
opaque Config.sampleRate : Nat

/-- `RING_SAMPLES`, OPEN (R9, R745). -/
opaque Config.ringSamples : Nat

/-- `SID_MODEL` of the instance `k`, OPEN (R9, R740). -/
opaque Config.sidModel (k : Fin 3) : SidModel

/-- `PULSE_SOFTEN(freq, acc, pw)`, OPEN (R715), applied to the output of the hard comparison, which it answers when it is
the identity. -/
opaque Config.pulseSoften (freq : BitVec 16) (acc : BitVec 24) (pw : BitVec 12) (hard : BitVec 12) : BitVec 12

/-- `COMBINED_WAVE(SID_MODEL, CONTROL[7:4], acc, prevWave)`, OPEN (R716). -/
opaque Config.combinedWave (model : SidModel) (select : BitVec 4) (acc : BitVec 24) (prevWave : BitVec 12) : BitVec 12

/-- `FILTER_STEP(SID_MODEL, fc, res, vi, lp, bp)`, OPEN (R740): the new `lp`, the new `bp`, and `hp`. -/
opaque Config.filterStep (model : SidModel) (fc : BitVec 11) (res : BitVec 4) (vi lp bp : Int) : Int × Int × Int

/-- `PCM_SCALE`, OPEN (R742, with `PCM_FORMAT`, R9): the sample of an exact instance output. -/
opaque Config.pcmScale (out : Rat) : Int

/-- `MIX_INSTANCES`, OPEN (R743): one frame, a sample for each channel, of the three instances' outputs. -/
opaque Config.mixInstances (out0 out1 out2 : Int) : List Int

end Sys2Proof
end

