-- ==== Sys2Proof/Machine/Defaults.lean ====
section
/-! DEFINITION. The default values of the parameters (00_scope R9, 93_implementation_defined I20 to I36). -/

namespace Sys2Proof

/-- The standard C64 bank truth table without a cartridge, the default `BANK_TABLE` (R102). -/
def BankTable.standard : BankTable where
  row0 := ⟨false, false, false, false⟩
  row1 := ⟨false, false, false, true⟩
  row2 := ⟨false, true, false, true⟩
  row3 := ⟨true, true, false, true⟩
  row4 := ⟨false, false, false, false⟩
  row5 := ⟨false, false, true, false⟩
  row6 := ⟨false, true, true, false⟩
  row7 := ⟨true, true, true, false⟩

/-- `BANK_TABLE_DOC`: the standard table with row 3 pure RAM (R103). -/
def BankTable.doc : BankTable := { BankTable.standard with row3 := ⟨false, false, false, false⟩ }

/-- The documented NMOS cycle counts, the default `CYCLE_TABLE` (R830; the field `cycles` of spec/opcode_table.json),
sixteen opcodes a line; an illegal opcode charges none (R410). -/
def nmosCycles : List Nat :=
  [7, 6, 0, 0, 0, 3, 5, 0, 3, 2, 2, 0, 0, 4, 6, 0] ++
  [2, 5, 0, 0, 0, 4, 6, 0, 2, 4, 0, 0, 0, 4, 7, 0] ++
  [6, 6, 0, 0, 3, 3, 5, 0, 4, 2, 2, 0, 4, 4, 6, 0] ++
  [2, 5, 0, 0, 0, 4, 6, 0, 2, 4, 0, 0, 0, 4, 7, 0] ++
  [6, 6, 0, 0, 0, 3, 5, 0, 3, 2, 2, 0, 3, 4, 6, 0] ++
  [2, 5, 0, 0, 0, 4, 6, 0, 2, 4, 0, 0, 0, 4, 7, 0] ++
  [6, 6, 0, 0, 0, 3, 5, 0, 4, 2, 2, 0, 5, 4, 6, 0] ++
  [2, 5, 0, 0, 0, 4, 6, 0, 2, 4, 0, 0, 0, 4, 7, 0] ++
  [0, 6, 0, 0, 3, 3, 3, 0, 2, 0, 2, 0, 4, 4, 4, 0] ++
  [2, 6, 0, 0, 4, 4, 4, 0, 2, 5, 2, 0, 0, 5, 0, 0] ++
  [2, 6, 2, 0, 3, 3, 3, 0, 2, 2, 2, 0, 4, 4, 4, 0] ++
  [2, 5, 0, 0, 4, 4, 4, 0, 2, 4, 2, 0, 4, 4, 4, 0] ++
  [2, 6, 0, 0, 3, 3, 5, 0, 2, 2, 2, 0, 4, 4, 6, 0] ++
  [2, 5, 0, 0, 0, 4, 6, 0, 2, 4, 0, 0, 0, 4, 7, 0] ++
  [2, 6, 0, 0, 3, 3, 5, 0, 2, 2, 2, 0, 4, 4, 6, 0] ++
  [2, 5, 0, 0, 0, 4, 6, 0, 2, 4, 0, 0, 0, 4, 7, 0]

/-- The parameters at their default values (R9). The ROM images have none: these read as zero (notes/assumptions/4.md). -/
def Params.default : Params where
  basicRom := []
  kernalRom := []
  charRom := []
  bankTable := BankTable.standard
  sidMap := []
  cycleTable := nmosCycles
  decimalModel := .nmos
  rmwDummyWrite := false
  jmpIndPageWrap := true
  resetBankByte := 0x37#8
  resetOnHalt := false
  lineCycles := 63
  badlineCycles := 40
  ciaSplit := 31
  cpuHz := 985248
  saveStartPtr := 0x002B#16
  saveEndPtr := 0x002D#16

end Sys2Proof
end

