-- ==== Sys2Proof/Machine/State.lean ====
section
/-! DEFINITION. The state of the machine as plain data (10_state R40 to R58), the reasons a step can stop, and the state right
after reset (70_reset_and_hazards R800 to R803). A register array and a memory are lists of (index, value) pairs, indexes
strictly rising, in which no pair holds the value an unlisted index reads as; the operations that keep this form are in
Ops.lean. -/

namespace Sys2Proof.Machine

/-- A memory of cells of `w` bits: (address, value) pairs. An unlisted cell reads as 0 (notes/assumptions/3.md). -/
abbrev Memory (w : Nat) := List (Nat × BitVec w)

/-- The status register `P` (R43): the stored flags. Bit 5 of a pushed status byte is never stored. -/
structure Status where
  n : Bool
  v : Bool
  /-- The stored break flag, which no instruction reads (R45). -/
  b : Bool
  d : Bool
  i : Bool
  z : Bool
  c : Bool
  deriving DecidableEq, Repr

/-- The video chip (R54). -/
structure Vic where
  /-- `vreg`: the stored byte of each of the 64 register indices. -/
  regs : Memory 8
  /-- The raster-line counter, 0..311. -/
  raster : BitVec 9
  /-- `rasterCompare`. -/
  compare : BitVec 9
  /-- `virqLatch`, bits 0..3 of register 0x19. -/
  latch : BitVec 4
  /-- `virqEnable`, bits 0..3 of register 0x1A. -/
  enable : BitVec 4
  collSS : Byte
  collSD : Byte
  /-- The frame rows drawn so far, by row number; a row not listed is still a draw (I12). -/
  frame : List (Nat × List Colour)
  /-- The border entries drawn so far, by raster line; an entry not listed is still a draw (I12). -/
  border : List (Nat × Colour)
  deriving DecidableEq, Repr

/-- A time of day, or an alarm: tenths, seconds, minutes, hours with PM in bit 7 (R504). -/
structure Tod where
  t10 : Byte
  sec : Byte
  min : Byte
  hr : Byte
  deriving DecidableEq, Repr

/-- One timer controller (R55). -/
structure Cia where
  pra : Byte
  prb : Byte
  ddra : Byte
  ddrb : Byte
  /-- Timer counters `TA` and `TB`, and their latches `LA` and `LB`. -/
  ta : Word
  tb : Word
  la : Word
  lb : Word
  cra : Byte
  crb : Byte
  icrLatch : BitVec 5
  icrMask : BitVec 5
  /-- The composite, bit 7 of the interrupt register. -/
  icrFlag : Bool
  tod : Tod
  alarm : Tod
  todRunning : Bool
  todFrozen : Bool
  todSnap : Tod
  sdr : Byte
  shiftCount : BitVec 5
  pb6 : Bool
  pb7 : Bool
  deriving DecidableEq, Repr

/-- Which timer controller (R561). -/
inductive CiaId where
  | cia1
  | cia2
  deriving DecidableEq, Repr

/-- The state of an envelope (R717). -/
inductive Adsr where
  | attack
  | decaySustain
  | release
  deriving DecidableEq, Repr

/-- `expPeriod`, one of 1, 2, 4, 8, 16, 30 (R56). -/
inductive ExpPeriod where
  | p1
  | p2
  | p4
  | p8
  | p16
  | p30
  deriving DecidableEq, Repr

/-- One voice of a sound chip (R56). -/
structure Voice where
  acc : BitVec 24
  lfsr : BitVec 23
  env : Byte
  rateCounter : BitVec 15
  expCounter : BitVec 5
  expPeriod : ExpPeriod
  adsr : Adsr
  holdZero : Bool
  prevGate : Bool
  /-- The skip of the attack-delay bug (R721). -/
  skipOne : Bool
  prevWave : BitVec 12
  prevMsb : Bool
  prevBit19 : Bool
  deriving DecidableEq, Repr

/-- One sound-chip instance (R56): its registers, three voices and the filter's integrators, whose number format is OPEN
(R740; notes/assumptions/7.md). -/
structure SidChip where
  regs : Memory 8
  voice0 : Voice
  voice1 : Voice
  voice2 : Voice
  lp : Int
  bp : Int
  deriving DecidableEq, Repr

/-- The sound engine (R56): three instances, the sample scheduler and the output ring buffer of frames. -/
structure Sid where
  chip0 : SidChip
  chip1 : SidChip
  chip2 : SidChip
  sampleAcc : Nat
  ring : List (List Int)
  deriving DecidableEq, Repr

/-- The place in the line loop of R440 at which the next action stands. -/
inductive Phase where
  /-- Before `nextRasterline`. -/
  | lineStart
  /-- In `runUntil(CIA_SPLIT)` of a line with no stolen cycles, whose budget is `budget`. -/
  | firstBatch (budget : Nat)
  /-- In `runUntil(budget)`. -/
  | lastBatch (budget : Nat)
  /-- Before `drawRasterline`. -/
  | draw
  /-- Before `soundLine`. -/
  | sound
  deriving DecidableEq, Repr

/-- The registers that `injectSubroutine` saves and restores (R462). -/
structure Saved where
  a : Byte
  x : Byte
  y : Byte
  sp : Byte
  p : Status
  pc : Word
  deriving DecidableEq, Repr

/-- The host acts that touch the core (R460): HT1, HT3, HT4, HT5, HT6 and HT9. -/
inductive HostAct where
  | todTick (c : CiaId)
  | inject (addr : Word) (a x y : Byte)
  | setPC (addr : Word)
  | loadImage (image : List Byte)
  | saveImage
  | reset
  deriving DecidableEq, Repr

/-- Who moves at a boundary (R8, R461): the core, or the host with one act. -/
inductive HostTurn where
  | core
  | host (act : HostAct)
  deriving DecidableEq, Repr

/-- The whole state of the machine. -/
structure State where
  a : Byte
  x : Byte
  y : Byte
  sp : Byte
  pc : Word
  p : Status
  halted : Bool
  haltPC : Word
  haltOp : Byte
  nmiAck : Bool
  /-- Cycles executed in the current raster line (R49). -/
  lineCycles : Nat
  /-- Cycles executed since the last timer check (R49). -/
  sinceCheck : Nat
  /-- Where the line loop stands (R440; notes/assumptions/8.md). -/
  phase : Phase
  /-- `RAM`, 65536 bytes (R50). -/
  ram : Memory 8
  bankByte : Byte
  /-- `COLOR`, 1024 cells of 4 bits (R53). -/
  color : Memory 4
  vic : Vic
  cia1 : Cia
  cia2 : Cia
  sid : Sid
  /-- The saved registers while an injected subroutine runs (R462; notes/assumptions/11.md). -/
  inject : Option Saved
  /-- Who moves at the next boundaries; when it is empty, the core (R461; notes/assumptions/9.md). -/
  hostPlan : List HostTurn
  /-- How many draws have been taken; the next is `Config.freeByte draws` (R16; notes/assumptions/5.md). -/
  draws : Nat
  /-- The parameters of R9, which no step writes (R57; notes/assumptions/6.md). -/
  cfg : Params
  deriving DecidableEq, Repr

/-- The machine stops. -/
inductive Fault where
  /-- Raised by `step` on a halted core: `Halt(IllegalOpcode)`, with the opcode byte and its address (R400, R410). Safe: the
  spec says that a halted core takes no further step. -/
  | illegalOpcode (op : Byte) (pc : Word)
  deriving DecidableEq, Repr

/-- An instruction has no meaning. -/
inductive Refusal where
  /-- Raised by an arm of `exec` whose instruction has no meaning yet. Safe: the machine stops. No arm raises it. -/
  | notModelled (mnemonic : String)
  deriving DecidableEq, Repr

/-- What an instruction or a step answers. -/
abbrev Result := Host.Outcome State Fault Refusal

/-- The status register right after reset: `I = 1` (R46); the other flags are a design choice (notes/assumptions/2.md). -/
def Status.reset : Status :=
  { n := false, v := false, b := false, d := false, i := true, z := false, c := false }

/-- The video chip right after reset (R54). -/
def Vic.reset : Vic :=
  { regs := [], raster := 0, compare := 0, latch := 0, enable := 0, collSS := 0, collSD := 0, frame := [], border := [] }

/-- A timer controller right after reset (R560). -/
def Cia.reset : Cia :=
  { pra := 0, prb := 0, ddra := 0, ddrb := 0, ta := 0xFFFF, tb := 0xFFFF, la := 0xFFFF, lb := 0xFFFF, cra := 0, crb := 0,
    icrLatch := 0, icrMask := 0, icrFlag := false, tod := ⟨0, 0, 0, 1⟩, alarm := ⟨0, 0, 0, 0⟩, todRunning := false,
    todFrozen := false, todSnap := ⟨0, 0, 0, 1⟩, sdr := 0, shiftCount := 0, pb6 := false, pb7 := false }

/-- A voice right after reset (R750). -/
def Voice.reset : Voice :=
  { acc := 0, lfsr := 0x7FFFF8, env := 0, rateCounter := 0, expCounter := 0, expPeriod := .p1, adsr := .release,
    holdZero := true, prevGate := false, skipOne := false, prevWave := 0, prevMsb := false, prevBit19 := false }

/-- A sound-chip instance right after reset (R750). -/
def SidChip.reset : SidChip :=
  { regs := [], voice0 := Voice.reset, voice1 := Voice.reset, voice2 := Voice.reset, lp := 0, bp := 0 }

/-- The sound engine right after reset (R750). -/
def Sid.reset : Sid :=
  { chip0 := SidChip.reset, chip1 := SidChip.reset, chip2 := SidChip.reset, sampleAcc := 0, ring := [] }

/-- The machine right after power-on and reset (R800 to R803), with the parameters at their defaults. The values the spec leaves
a draw are the model's choice: A, X, Y, SP (notes/assumptions/1.md), the flags but I and the halt record
(notes/assumptions/2.md), RAM and colour memory (notes/assumptions/3.md), and the ROM images, from which the PC is read
(notes/assumptions/4.md). -/
def State.reset : State :=
  { a := 0, x := 0, y := 0, sp := 0, pc := 0x0000, p := Status.reset, halted := false, haltPC := 0, haltOp := 0,
    nmiAck := true, lineCycles := 0, sinceCheck := 0, phase := .lineStart, ram := [], bankByte := 0x37, color := [],
    vic := Vic.reset, cia1 := Cia.reset, cia2 := Cia.reset, sid := Sid.reset, inject := none, hostPlan := [], draws := 0,
    cfg := Params.default }

end Sys2Proof.Machine
end

