-- ==== Sys2Proof/Machine/Basic.lean ====
section
/-! DEFINITION. The operations every later file is written over: lists of (index, value) pairs in their one canonical form,
the draw of a free value, and one named update for each CPU register. -/

namespace Sys2Proof.Machine

/-- The value a list of (index, value) pairs gives for an index, if it gives one. -/
def lookAt {α : Type} (k : Nat) : List (Nat × α) → Option α
  | [] => none
  | (k', v) :: rest => if k' = k then some v else lookAt k rest

/-- The list with the index `k` set to `v`, its place in the rising order kept. -/
def putAt {α : Type} (k : Nat) (v : α) : List (Nat × α) → List (Nat × α)
  | [] => [(k, v)]
  | (k', v') :: rest =>
    if k < k' then (k, v) :: (k', v') :: rest
    else if k = k' then (k, v) :: rest
    else (k', v') :: putAt k v rest

/-- The list without the index `k`. -/
def dropAt {α : Type} (k : Nat) : List (Nat × α) → List (Nat × α)
  | [] => []
  | (k', v') :: rest => if k' = k then dropAt k rest else (k', v') :: dropAt k rest

/-- What an unlisted cell of a memory reads as (notes/assumptions/3.md). -/
def Memory.unlisted (w : Nat) : BitVec w := 0#w

/-- The cell at an address. -/
def Memory.read {w : Nat} (m : Memory w) (a : Nat) : BitVec w :=
  (lookAt a m).getD (Memory.unlisted w)

/-- The memory with the cell at `a` set to `v`, in canonical form. -/
def Memory.write {w : Nat} (m : Memory w) (a : Nat) (v : BitVec w) : Memory w :=
  if v = Memory.unlisted w then dropAt a m else putAt a v m

/-- The canonical form: indexes strictly rising, and no listed cell holds what an unlisted one reads as. -/
abbrev Memory.wf {w : Nat} (m : Memory w) : Prop :=
  m.Pairwise (fun p q => p.1 < q.1) ∧ ∀ p ∈ m, p.2 ≠ Memory.unlisted w

/-- Every listed index lies below `size`. -/
abbrev Memory.within {w : Nat} (m : Memory w) (size : Nat) : Prop := ∀ p ∈ m, p.1 < size

/-- One draw (R16): a free value of 8 bits, fresh each time. -/
def State.draw (s : State) : Byte × State := (Config.freeByte s.draws, { s with draws := s.draws + 1 })

/-- `stored` where `mask` has a 1, a draw's bits elsewhere. -/
def mixFree (mask stored free : Byte) : Byte := (stored &&& mask) ||| (free &&& ~~~mask)

/-- `A <- v` (R13, R40). -/
def State.setA (s : State) (v : Byte) : State := { s with a := v }

/-- `X <- v`. -/
def State.setX (s : State) (v : Byte) : State := { s with x := v }

/-- `Y <- v`. -/
def State.setY (s : State) (v : Byte) : State := { s with y := v }

/-- `SP <- v` (R41). -/
def State.setSP (s : State) (v : Byte) : State := { s with sp := v }

/-- `PC <- v` (R15, R42). -/
def State.setPC (s : State) (v : Word) : State := { s with pc := v }

/-- `P <- v` (R43). -/
def State.setP (s : State) (v : Status) : State := { s with p := v }

/-- `PC <- (PC + n) & 0xFFFF` (R163, R165). -/
def State.advance (s : State) (n : Nat) : State := s.setPC (s.pc + BitVec.ofNat 16 n)

/-- `cycles += n` (R15, R441). -/
def State.charge (s : State) (n : Nat) : State :=
  { s with lineCycles := s.lineCycles + n, sinceCheck := s.sinceCheck + n }

/-- `CYCLE_TABLE[op]` (R164, R830). -/
def State.cyclesOf (s : State) (op : Byte) : Nat := s.cfg.cycleTable.getD op.toNat 0

end Sys2Proof.Machine
end

