-- ==== Sys2Proof/Machine/CiaRegs.lean ====
section
/-! DEFINITION. The timer controllers CIA1 and CIA2 (61_timer_controller R500 to R561): register reads and writes, the
interrupt composite, advancing at a check, and the time-of-day clock. -/

namespace Sys2Proof.Machine

/-- The timer controller `id` of a state. -/
def State.cia (s : State) : CiaId → Cia
  | .cia1 => s.cia1
  | .cia2 => s.cia2

/-- The state with the timer controller `id` replaced. -/
def State.setCia (s : State) (id : CiaId) (c : Cia) : State :=
  match id with
  | .cia1 => { s with cia1 := c }
  | .cia2 => { s with cia2 := c }

/-- `CRA.START` (R501). -/
def Cia.startA (c : Cia) : Bool := c.cra.getLsbD 0
/-- `CRA.PBON`. -/
def Cia.pbonA (c : Cia) : Bool := c.cra.getLsbD 1
/-- `CRA.OUTMODE`, 1 = toggle. -/
def Cia.toggleA (c : Cia) : Bool := c.cra.getLsbD 2
/-- `CRA.RUNMODE`, 1 = one-shot. -/
def Cia.oneShotA (c : Cia) : Bool := c.cra.getLsbD 3
/-- `CRA.INMODE`, 1 = count the CNT pin. -/
def Cia.cntA (c : Cia) : Bool := c.cra.getLsbD 5
/-- `CRA.SPMODE`, 1 = serial output. -/
def Cia.serialOut (c : Cia) : Bool := c.cra.getLsbD 6
/-- `CRB.START` (R502). -/
def Cia.startB (c : Cia) : Bool := c.crb.getLsbD 0
/-- `CRB.PBON`. -/
def Cia.pbonB (c : Cia) : Bool := c.crb.getLsbD 1
/-- `CRB.OUTMODE`, 1 = toggle. -/
def Cia.toggleB (c : Cia) : Bool := c.crb.getLsbD 2
/-- `CRB.RUNMODE`, 1 = one-shot. -/
def Cia.oneShotB (c : Cia) : Bool := c.crb.getLsbD 3
/-- `CRB.INMODE`, bits 6 and 5. -/
def Cia.inmodeB (c : Cia) : BitVec 2 := c.crb.extractLsb' 5 2
/-- `CRB.ALARM`, 1 = TOD writes set the alarm. -/
def Cia.alarmWrites (c : Cia) : Bool := c.crb.getLsbD 7

/-- The composite recomputed (R530). -/
def Cia.recompose (c : Cia) : Cia := { c with icrFlag := (c.icrLatch &&& c.icrMask) != 0#5 }

/-- The port A output value (R511). -/
def Cia.outA (c : Cia) : Byte := c.pra ||| ~~~c.ddra

/-- Bit `k` of a byte replaced. -/
def setBit (v : Byte) (k : Nat) (b : Bool) : Byte :=
  if b then v ||| (1#8 <<< k) else v &&& ~~~(1#8 <<< k)

/-- The port B output value (R511), with bits 6 and 7 as the timer outputs of R514. -/
def Cia.outB (c : Cia) : Byte :=
  let v := c.prb ||| ~~~c.ddrb
  let v := if c.pbonA then setBit v 6 (c.toggleA && c.pb6) else v
  if c.pbonB then setBit v 7 (c.toggleB && c.pb7) else v

/-- A port read of output value `out` (R512, R513): CIA1's is ANDed with a fresh input probe, CIA2's is the output. -/
def portRead (id : CiaId) (out : Byte) (s : State) : Byte × State :=
  match id with
  | .cia1 => (out &&& s.draw.1, s.draw.2)
  | .cia2 => (out, s)

/-- A read of the tenths register (R553): it releases the freeze. -/
def Cia.readTenths (c : Cia) : Byte × Cia :=
  (if c.todFrozen then c.todSnap.t10 else c.tod.t10, { c with todFrozen := false })

/-- A read of the seconds register (R553). -/
def Cia.readSeconds (c : Cia) : Byte := if c.todFrozen then c.todSnap.sec else c.tod.sec

/-- A read of the minutes register (R553). -/
def Cia.readMinutes (c : Cia) : Byte := if c.todFrozen then c.todSnap.min else c.tod.min

/-- A read of the hours register (R553): it freezes the snapshot unless it is frozen already. -/
def Cia.readHours (c : Cia) : Byte × Cia :=
  let c := if c.todFrozen then c else { c with todSnap := c.tod, todFrozen := true }
  (c.todSnap.hr, c)

/-- A read of the interrupt register (R531): composite in bit 7, latch in bits 4..0, then both clear. -/
def Cia.readIcr (c : Cia) : Byte × Cia :=
  (BitVec.ofBool c.icrFlag ++ 0#2 ++ c.icrLatch, { c with icrLatch := 0, icrFlag := false })

/-- `ciaRead(c, i)` (R500, R510). Reading CIA2's interrupt register also sets `nmiAck` (R531). -/
def ciaRead (id : CiaId) (i : BitVec 4) (s : State) : Byte × State :=
  let c := s.cia id
  match i.toNat with
  | 0x0 => portRead id c.outA s
  | 0x1 => portRead id c.outB s
  | 0x2 => (c.ddra, s)
  | 0x3 => (c.ddrb, s)
  | 0x4 => (loByte c.ta, s)
  | 0x5 => (hiByte c.ta, s)
  | 0x6 => (loByte c.tb, s)
  | 0x7 => (hiByte c.tb, s)
  | 0x8 => (c.readTenths.1, s.setCia id c.readTenths.2)
  | 0x9 => (c.readSeconds, s)
  | 0xA => (c.readMinutes, s)
  | 0xB => (c.readHours.1, s.setCia id c.readHours.2)
  | 0xC => (c.sdr, s)
  | 0xD => (c.readIcr.1, { s.setCia id c.readIcr.2 with nmiAck := id = .cia2 || s.nmiAck })
  | 0xE => (c.cra &&& 0xEF#8, s)
  | _ => (c.crb &&& 0xEF#8, s)

/-- A write of a TOD register (R526): to the alarm when `CRB.ALARM = 1`, else to the clock; `run` is the run state a clock
write leaves. -/
def Cia.writeTod (c : Cia) (set : Tod → Tod) (run : Bool) : Cia :=
  if c.alarmWrites then { c with alarm := set c.alarm } else { c with tod := set c.tod, todRunning := run }

/-- A write of timer A's latch high byte (R521): it also loads the counter when the timer is stopped. -/
def Cia.writeTaHigh (c : Cia) (v : Byte) : Cia :=
  let la := wordOf (loByte c.la) v
  { c with la := la, ta := if c.startA then c.ta else la }

/-- A write of timer B's latch high byte (R521). -/
def Cia.writeTbHigh (c : Cia) (v : Byte) : Cia :=
  let lb := wordOf (loByte c.lb) v
  { c with lb := lb, tb := if c.startB then c.tb else lb }

/-- A write of CRA (R522, R524): bit 4 is a strobe, and a start sets the toggle output. -/
def Cia.writeCra (c : Cia) (v : Byte) : Cia :=
  { c with
    cra := v &&& 0xEF#8
    ta := if v.getLsbD 4 then c.la else c.ta
    pb6 := c.pb6 || (!c.startA && v.getLsbD 0) }

/-- A write of CRB (R523, R524). -/
def Cia.writeCrb (c : Cia) (v : Byte) : Cia :=
  { c with
    crb := v &&& 0xEF#8
    tb := if v.getLsbD 4 then c.lb else c.tb
    pb7 := c.pb7 || (!c.startB && v.getLsbD 0) }

/-- A write of the serial data register (R525). -/
def Cia.writeSdr (c : Cia) (v : Byte) : Cia :=
  { c with sdr := v, shiftCount := if c.serialOut then 16#5 else c.shiftCount }

/-- A write of the interrupt register (R532): the mask bits written as 1 are set or cleared, by bit 7. -/
def Cia.writeIcr (c : Cia) (v : Byte) : Cia :=
  let bits : BitVec 5 := v.extractLsb' 0 5
  Cia.recompose { c with icrMask := if v.getLsbD 7 then c.icrMask ||| bits else c.icrMask &&& ~~~bits }

/-- `ciaWrite(c, i, v)` (R500, R520). -/
def Cia.write (c : Cia) (i : BitVec 4) (v : Byte) : Cia :=
  match i.toNat with
  | 0x0 => { c with pra := v }
  | 0x1 => { c with prb := v }
  | 0x2 => { c with ddra := v }
  | 0x3 => { c with ddrb := v }
  | 0x4 => { c with la := wordOf v (hiByte c.la) }
  | 0x5 => c.writeTaHigh v
  | 0x6 => { c with lb := wordOf v (hiByte c.lb) }
  | 0x7 => c.writeTbHigh v
  | 0x8 => c.writeTod (fun t => { t with t10 := v &&& 0x0F#8 }) true
  | 0x9 => c.writeTod (fun t => { t with sec := v &&& 0x7F#8 }) c.todRunning
  | 0xA => c.writeTod (fun t => { t with min := v &&& 0x7F#8 }) c.todRunning
  | 0xB => c.writeTod (fun t => { t with hr := v &&& 0x9F#8 }) false
  | 0xC => c.writeSdr v
  | 0xD => c.writeIcr v
  | 0xE => c.writeCra v
  | _ => c.writeCrb v

/-- Timer A at a check (R540): the controller after it, and whether timer A underflowed. -/
def Cia.advanceA (c : Cia) (delta : Nat) : Cia × Bool :=
  if c.startA && !c.cntA && decide (0 < delta) then
    if c.ta.toNat ≤ delta then
      ({ c with
          icrLatch := c.icrLatch ||| 1#5
          pb6 := !c.pb6
          ta := if c.oneShotA then 0 else c.la
          cra := if c.oneShotA then c.cra &&& 0xFE#8 else c.cra }, true)
    else ({ c with ta := c.ta - BitVec.ofNat 16 delta }, false)
  else (c, false)

/-- The serial-shift countdown at a check, after timer A (R543). -/
def Cia.advanceSerial (c : Cia) (underflowA : Bool) : Cia :=
  if c.serialOut && underflowA && decide (0 < c.shiftCount.toNat) then
    { c with
      shiftCount := c.shiftCount - 1
      icrLatch := if c.shiftCount = 1#5 then c.icrLatch ||| 8#5 else c.icrLatch }
  else c

/-- What timer B counts at a check (R541): the cycles, timer A's underflow, or nothing, by `CRB.INMODE`. -/
def Cia.countB (c : Cia) (underflowA : Bool) (delta : Nat) : Nat :=
  match c.inmodeB.toNat with
  | 0 => delta
  | 1 => 0
  | _ => if underflowA then 1 else 0

/-- Timer B at a check (R541). -/
def Cia.advanceB (c : Cia) (underflowA : Bool) (delta : Nat) : Cia :=
  let k := c.countB underflowA delta
  if c.startB && decide (0 < k) then
    if c.tb.toNat ≤ k then
      { c with
        icrLatch := c.icrLatch ||| 2#5
        pb7 := !c.pb7
        tb := if c.oneShotB then 0 else c.lb
        crb := if c.oneShotB then c.crb &&& 0xFE#8 else c.crb }
    else { c with tb := c.tb - BitVec.ofNat 16 k }
  else c

/-- `ciaAdvance(c, delta)` (R544): timer A, the serial countdown, timer B, the composite. -/
def Cia.advance (c : Cia) (delta : Nat) : Cia :=
  let a := c.advanceA delta
  Cia.recompose ((a.1.advanceSerial a.2).advanceB a.2 delta)

/-- `ciaCheck()` (R442): both controllers advance by the cycles since the last check. -/
def ciaCheck (s : State) : State :=
  { s with cia1 := s.cia1.advance s.sinceCheck, cia2 := s.cia2.advance s.sinceCheck, sinceCheck := 0 }

/-- A BCD byte is legal for a field whose last value is `max` (R504, R554). -/
def bcdLegal (x max : Byte) : Bool := decide (x.toNat ≤ max.toNat) && decide (x.toNat % 16 ≤ 9)

/-- `incBCD(x, max)` (R551): the next value, and whether it carries. -/
def incBcd (x max : Byte) : Byte × Bool :=
  if x = max then (0x00#8, true)
  else if x &&& 0x0F#8 = 9#8 then ((x &&& 0xF0#8) + 0x10#8, false)
  else (x + 1#8, false)

/-- One TOD field's step (R551): a legal value increments; an illegal one gets a draw, kept to the field's bits, and a drawn
carry (notes/assumptions/18.md). -/
def incField (x max mask : Byte) (s : State) : (Byte × Bool) × State :=
  if bcdLegal x max then (incBcd x max, s)
  else ((s.draw.1 &&& mask, s.draw.2.draw.1.getLsbD 0), s.draw.2.draw.2)

/-- An hours byte is legal: 0x01 to 0x09 and 0x10 to 0x12, with or without PM (R504). -/
def hoursLegal (hr : Byte) : Bool :=
  let h := (hr &&& 0x7F#8).toNat
  (decide (1 ≤ h) && decide (h ≤ 9)) || (decide (0x10 ≤ h) && decide (h ≤ 0x12))

/-- The hours after 59:59.9 (R551): 11 to 12 toggles PM, 12 to 1 keeps it. -/
def incHours (hr : Byte) : Byte :=
  let h := hr &&& 0x1F#8
  let pm := hr &&& 0x80#8
  if h = 0x11#8 then (pm ^^^ 0x80#8) ||| 0x12#8
  else if h = 0x12#8 then pm ||| 0x01#8
  else if h = 0x09#8 then pm ||| 0x10#8
  else pm ||| (h + 1#8)

/-- The hours field's step (R551): an illegal value gets a draw, kept to the field's bits. -/
def incHoursField (hr : Byte) (s : State) : Byte × State :=
  if hoursLegal hr then (incHours hr, s) else (s.draw.1 &&& 0x9F#8, s.draw.2)

/-- `todInc` (R551): each field steps only when the one below it carries. -/
def todInc (t : Tod) (s : State) : Tod × State :=
  let r10 := incField t.t10 0x09 0x0F s
  let t := { t with t10 := r10.1.1 }
  if r10.1.2 then
    let rs := incField t.sec 0x59 0x7F r10.2
    let t := { t with sec := rs.1.1 }
    if rs.1.2 then
      let rm := incField t.min 0x59 0x7F rs.2
      let t := { t with min := rm.1.1 }
      if rm.1.2 then
        let rh := incHoursField t.hr rm.2
        ({ t with hr := rh.1 }, rh.2)
      else (t, rm.2)
    else (t, rs.2)
  else (t, r10.2)

/-- The alarm compare after a tick (R552): it sets latch bit 2 when the tick changed the time and it equals the alarm. -/
def Cia.compareAlarm (c : Cia) (old : Tod) : Cia :=
  if c.tod ≠ old ∧ c.tod = c.alarm then Cia.recompose { c with icrLatch := c.icrLatch ||| 4#5 } else c

/-- `todTick(c)`, host act HT1 (R550). -/
def todTick (id : CiaId) (s : State) : State :=
  let c := s.cia id
  if c.todRunning then
    let r := todInc c.tod s
    r.2.setCia id (Cia.compareAlarm { c with tod := r.1 } c.tod)
  else s

end Sys2Proof.Machine
end

