-- ==== Sys2Proof/Machine/VicRegs.lean ====
section
/-! DEFINITION. The video chip's registers (62_video_chip R610 to R623) and its raster sequencer (R630 to R634). -/

namespace Sys2Proof.Machine

/-- The stored byte `vreg[i]`. -/
def Vic.reg (v : Vic) (i : Nat) : Byte := v.regs.read i

/-- `vicIrq`: some enabled latch bit is set (R616). -/
def Vic.irq (v : Vic) : Bool := (v.latch &&& v.enable) != 0#4

/-- `YSCROLL` (R613). -/
def Vic.yscroll (v : Vic) : BitVec 3 := (v.reg 0x11).extractLsb' 0 3
/-- `RSEL` (R613). -/
def Vic.rsel (v : Vic) : Bool := (v.reg 0x11).getLsbD 3
/-- `DEN` (R613). -/
def Vic.den (v : Vic) : Bool := (v.reg 0x11).getLsbD 4
/-- `BMM` (R613). -/
def Vic.bmm (v : Vic) : Bool := (v.reg 0x11).getLsbD 5
/-- `ECM` (R613). -/
def Vic.ecm (v : Vic) : Bool := (v.reg 0x11).getLsbD 6
/-- `XSCROLL` (R614). -/
def Vic.xscroll (v : Vic) : BitVec 3 := (v.reg 0x16).extractLsb' 0 3
/-- `CSEL` (R614). -/
def Vic.csel (v : Vic) : Bool := (v.reg 0x16).getLsbD 3
/-- `MCM` (R614). -/
def Vic.mcm (v : Vic) : Bool := (v.reg 0x16).getLsbD 4
/-- The colour a register holds: bits 3..0 of the byte at index `i` (R618). -/
def Vic.colour (v : Vic) (i : Nat) : Colour := (v.reg i).extractLsb' 0 4

/-- Which bits of a read of index `i` the chip gives; the others are a draw (R611, R616, R618, R619). -/
def vicReadMask (i : Nat) : Byte :=
  match i with
  | 0x13 => 0x00#8
  | 0x14 => 0x00#8
  | 0x16 => 0x3F#8
  | 0x18 => 0xFE#8
  | 0x19 => 0x8F#8
  | 0x1A => 0x0F#8
  | _ => if 0x2F ≤ i then 0x00#8 else if 0x20 ≤ i then 0x0F#8 else 0xFF#8

/-- The bits the chip gives for a read of index `i` (R611, R612, R616 to R618). -/
def Vic.readBits (v : Vic) (i : Nat) : Byte :=
  match i with
  | 0x11 => BitVec.ofBool (v.raster.getLsbD 8) ++ (v.reg 0x11).extractLsb' 0 7
  | 0x12 => v.raster.extractLsb' 0 8
  | 0x19 => BitVec.ofBool v.irq ++ 0#3 ++ v.latch
  | 0x1A => 0#4 ++ v.enable
  | 0x1E => v.collSS
  | 0x1F => v.collSD
  | _ => v.reg i

/-- What a read leaves of the chip: the two self-clearing registers clear (R617). -/
def Vic.afterRead (v : Vic) (i : Nat) : Vic :=
  match i with
  | 0x1E => { v with collSS := 0 }
  | 0x1F => { v with collSD := 0 }
  | _ => v

/-- `vicRead(i)` (R610): a draw is taken only where some bit of the read is one. -/
def vicRead (i : BitVec 6) (s : State) : Byte × State :=
  let n := i.toNat
  let bits := s.vic.readBits n
  let s' := { s with vic := s.vic.afterRead n }
  if vicReadMask n = 0xFF#8 then (bits, s')
  else (mixFree (vicReadMask n) bits s'.draw.1, s'.draw.2)

/-- `vicWrite(i, v)` (R611, R620 to R623). -/
def Vic.write (c : Vic) (i : BitVec 6) (v : Byte) : Vic :=
  match i.toNat with
  | 0x11 =>
    { c with regs := c.regs.write 0x11 v, compare := BitVec.ofBool (v.getLsbD 7) ++ c.compare.extractLsb' 0 8 }
  | 0x12 =>
    { c with regs := c.regs.write 0x12 v, compare := BitVec.ofBool (c.compare.getLsbD 8) ++ v }
  | 0x13 => c
  | 0x14 => c
  | 0x19 => { c with latch := c.latch &&& ~~~(v.extractLsb' 0 4) }
  | 0x1A => { c with enable := v.extractLsb' 0 4 }
  | 0x1E => c
  | 0x1F => c
  | n => if 0x2F ≤ n then c else { c with regs := c.regs.write n v }

/-- The bad-line test (R632). -/
def Vic.badLine (v : Vic) (r : BitVec 9) : Bool :=
  r.extractLsb' 0 3 == v.yscroll && decide (0x30 ≤ r.toNat) && decide (r.toNat ≤ 0xF7) && v.den

/-- The raster counter one line on (R630). -/
def nextRaster (r : BitVec 9) : BitVec 9 := BitVec.ofNat 9 ((r.toNat + 1) % 312)

/-- The chip after `nextRasterline` (R630, R631): the raster advances, and a match sets latch bit 0. -/
def Vic.nextLine (v : Vic) : Vic :=
  let r := nextRaster v.raster
  { v with raster := r, latch := if r = v.compare then v.latch ||| 1#4 else v.latch }

/-- The cycles the new line steals (R630, R632). -/
def Vic.stolen (v : Vic) (badlineCycles : Nat) : Nat := if v.badLine v.raster then badlineCycles else 0

end Sys2Proof.Machine
end

