-- ==== Sys2Proof/Machine/SidRegs.lean ====
section
/-! DEFINITION. The sound engine as the CPU sees it (63_sound_engine R701, R702, R705). -/

namespace Sys2Proof.Machine

/-- The default `SID_MAP` (R705): instance 0, register `o & 0x1F`. -/
def sidDefaultTarget (o : Byte) : SidTarget := { chip := 0, reg := o.extractLsb' 0 5 }

/-- `SID_MAP(o)` (R705). -/
def State.sidTarget (s : State) (o : Byte) : SidTarget := s.cfg.sidMap.getD o.toNat (sidDefaultTarget o)

/-- The chip instance `k`. -/
def Sid.chip (d : Sid) (k : Fin 3) : SidChip :=
  match k with
  | 0 => d.chip0
  | 1 => d.chip1
  | 2 => d.chip2

/-- The engine with the chip instance `k` replaced. -/
def Sid.setChip (d : Sid) (k : Fin 3) (c : SidChip) : Sid :=
  match k with
  | 0 => { d with chip0 := c }
  | 1 => { d with chip1 := c }
  | 2 => { d with chip2 := c }

/-- `sidRead(o)` (R701): register 0x1C reads 0x00, every other one a draw. -/
def sidRead (o : Byte) (s : State) : Byte × State :=
  if (s.sidTarget o).reg = 0x1C#5 then (0x00#8, s) else s.draw

/-- `sidWrite(o, v)` (R702): the byte is stored. -/
def sidWrite (o : Byte) (v : Byte) (s : State) : State :=
  let t := s.sidTarget o
  let c := s.sid.chip t.chip
  { s with sid := s.sid.setChip t.chip { c with regs := c.regs.write t.reg.toNat v } }

end Sys2Proof.Machine
end

