-- ==== Sys2Proof/Machine/Ops.lean ====
section
/-! DEFINITION. The memory bus (20_memory R100 to R135), the stack, and taking and leaving an interrupt (60_exceptions R421,
45_control R302, R303): the operations every instruction is written over. -/

namespace Sys2Proof.Machine

/-- The row of a bank table for a bank mode (R102). -/
def bankRow (t : BankTable) (mode : BitVec 3) : BankRow :=
  match mode.toNat with
  | 0 => t.row0
  | 1 => t.row1
  | 2 => t.row2
  | 3 => t.row3
  | 4 => t.row4
  | 5 => t.row5
  | 6 => t.row6
  | _ => t.row7

/-- The four visibility flags in force: `BANK_TABLE[bankByte[2:0]]` (R102). -/
def State.visible (s : State) : BankRow := bankRow s.cfg.bankTable (s.bankByte.extractLsb' 0 3)

/-- Where a read or a write of the CPU goes. -/
inductive Route where
  | basicRom
  | kernalRom
  | io
  | charRom
  | bankByte
  | ram
  deriving DecidableEq, Repr

/-- The I/O and character ROM range 0xD000 to 0xDFFF (R104). -/
def inIoRange (a : Word) : Bool := decide (0xD000 ≤ a.toNat) && decide (a.toNat ≤ 0xDFFF)

/-- The routing of a read, first match wins (R110). -/
def readRoute (f : BankRow) (a : Word) : Route :=
  if f.basic && decide (0xA000 ≤ a.toNat) && decide (a.toNat ≤ 0xBFFF) then .basicRom
  else if f.kernal && decide (0xE000 ≤ a.toNat) then .kernalRom
  else if f.io && inIoRange a then .io
  else if f.char && inIoRange a then .charRom
  else if a = 0x0001#16 then .bankByte
  else .ram

/-- The routing of a write (R112): a write never reaches a ROM. -/
def writeRoute (f : BankRow) (a : Word) : Route :=
  if a = 0x0001#16 then .bankByte
  else if f.io && inIoRange a then .io
  else .ram

/-- `ioRead(a)` (R111). -/
def ioRead (a : Word) (s : State) : Byte × State :=
  let n := a.toNat
  if n ≤ 0xD3FF then vicRead (a.extractLsb' 0 6) s
  else if n ≤ 0xD7FF then sidRead (loByte a) s
  else if n ≤ 0xDBFF then
    (mixFree 0x0F#8 ((s.color.read (n - 0xD800)).setWidth 8) s.draw.1, s.draw.2)
  else if n ≤ 0xDCFF then ciaRead .cia1 (a.extractLsb' 0 4) s
  else if n ≤ 0xDDFF then ciaRead .cia2 (a.extractLsb' 0 4) s
  else s.draw

/-- `ioWrite(a, v)` (R113). -/
def ioWrite (a : Word) (v : Byte) (s : State) : State :=
  let n := a.toNat
  if n ≤ 0xD3FF then { s with vic := s.vic.write (a.extractLsb' 0 6) v }
  else if n ≤ 0xD7FF then sidWrite (loByte a) v s
  else if n ≤ 0xDBFF then { s with color := s.color.write (n - 0xD800) (v.extractLsb' 0 4) }
  else if n ≤ 0xDCFF then { s with cia1 := s.cia1.write (a.extractLsb' 0 4) v }
  else if n ≤ 0xDDFF then { s with cia2 := s.cia2.write (a.extractLsb' 0 4) v }
  else s

/-- `RAM[a] <- v`, not through the bus (R50). -/
def State.setRam (s : State) (a : Word) (v : Byte) : State := { s with ram := s.ram.write a.toNat v }

/-- `MemRead(a, 1)`: one CPU read through the bus, with its side effects (R101, R110). -/
def busRead (a : Word) (s : State) : Byte × State :=
  match readRoute s.visible a with
  | .basicRom => (Memory.read (w := 8) s.cfg.basicRom (a.toNat - 0xA000), s)
  | .kernalRom => (Memory.read (w := 8) s.cfg.kernalRom (a.toNat - 0xE000), s)
  | .io => ioRead a s
  | .charRom => (Memory.read (w := 8) s.cfg.charRom (a.toNat - 0xD000), s)
  | .bankByte => (s.bankByte, s)
  | .ram => (s.ram.read a.toNat, s)

/-- `MemWrite(a, 1, v)`: one CPU write through the bus (R101, R112, R114). -/
def busWrite (a : Word) (v : Byte) (s : State) : State :=
  match writeRoute s.visible a with
  | .bankByte => { s.setRam a v with bankByte := v }
  | .io => ioWrite a v s
  | _ => s.setRam a v

/-- `MemRead16(a)` (R14): two reads, low byte first, the second at `a + 1` modulo 0x10000. -/
def busRead16 (a : Word) (s : State) : Word × State :=
  let lo := busRead a s
  let hi := busRead (a + 1#16) lo.2
  (wordOf lo.1 hi.1, hi.2)

/-- The address of a stack byte: `0x0100 | SP` (R14, R41). -/
def stackAddr (sp : Byte) : Word := 0x0100#16 ||| zext16 sp

/-- `Push(v)` (R14): the write, then SP one lower, modulo 256. -/
def push (v : Byte) (s : State) : State :=
  let t := busWrite (stackAddr s.sp) v s
  t.setSP (t.sp - 1#8)

/-- `Pull()` (R14): SP one higher, modulo 256, then the read. -/
def pull (s : State) : Byte × State :=
  let t := s.setSP (s.sp + 1#8)
  busRead (stackAddr t.sp) t

/-- A word pushed, high byte first (R122). -/
def pushWord (w : Word) (s : State) : State := push (loByte w) (push (hiByte w) s)

/-- A word pulled, low byte first (R292, R303). -/
def pullWord (s : State) : Word × State :=
  let lo := pull s
  let hi := pull lo.2
  (wordOf lo.1 hi.1, hi.2)

/-- `pack(P, b)` (R43): the status byte pushed with break bit `b`; bit 5 is 1. -/
def Status.pack (p : Status) (b : Bool) : Byte :=
  BitVec.ofBool p.n ++ BitVec.ofBool p.v ++ 1#1 ++ BitVec.ofBool b ++ BitVec.ofBool p.d ++ BitVec.ofBool p.i ++
    BitVec.ofBool p.z ++ BitVec.ofBool p.c

/-- The status a pulled byte restores (R229, R303): bits 5 and 4 are discarded; `b` is the stored break flag. -/
def Status.ofByte (v : Byte) (b : Bool) : Status :=
  { n := v.getLsbD 7, v := v.getLsbD 6, b := b, d := v.getLsbD 3, i := v.getLsbD 2, z := v.getLsbD 1, c := v.getLsbD 0 }

/-- P pulled from the stack, as PLP and RTI do: the stored break flag becomes a draw (R45, R229, R303). -/
def pullStatus (s : State) : State :=
  let r := pull s
  let f := r.2.draw
  f.2.setP (Status.ofByte r.1 (f.1.getLsbD 0))

/-- Taking an interrupt (R421; R302 for BRK): PC is pushed, high byte first, then the status byte with break bit `b`; `I` is
set; PC is read from the vector. `D` and every other register keep their values. -/
def takeInterrupt (b : Bool) (vector : Word) (s : State) : State :=
  let s1 := pushWord s.pc s
  let s2 := push (s1.p.pack b) s1
  let s3 := s2.setP { s2.p with i := true }
  let r := busRead16 vector s3
  r.2.setPC r.1

/-- Returning from an interrupt (R303, R426): the status, then PC, from the stack, and nothing else. -/
def returnInterrupt (s : State) : State :=
  let s1 := pullStatus s
  let r := pullWord s1
  r.2.setPC r.1

/-- `enter(vector)` (R421): a hardware interrupt's entry, with break bit 0 and 7 cycles. -/
def enterInterrupt (vector : Word) (s : State) : State := (takeInterrupt false vector s).charge 7

/-- `enterIRQ()` (R422). -/
def enterIRQ (s : State) : State := enterInterrupt 0xFFFE#16 s

/-- `enterNMI()` (R424): the acknowledge latch closes, then the entry. -/
def enterNMI (s : State) : State := enterInterrupt 0xFFFA#16 { s with nmiAck := false }

/-- `irqLine` (R415). -/
def State.irqLine (s : State) : Bool := s.vic.irq || s.cia1.icrFlag

/-- `nmiLine` (R415). -/
def State.nmiLine (s : State) : Bool := s.cia2.icrFlag

end Sys2Proof.Machine
end

