-- ==== Sys2Proof/Machine/Operands.lean ====
section
/-! DEFINITION. Operand forms (30_encoding R170 to R182) and the shapes an instruction can have: it reads its operand, stores
one, reads, modifies and writes one, branches, or names its operands itself. -/

namespace Sys2Proof.Machine

/-- A byte of page 0 read as a pointer byte (R175, R176): a bus read, which has no side effect there (R123). -/
def zeroPageByte (z : Byte) (s : State) : Byte := (busRead (zext16 z) s).1

/-- The pointer at page 0 address `z`, whose second byte wraps in page 0 (R175, R176). -/
def zeroPagePointer (z : Byte) (s : State) : Word := wordOf (zeroPageByte z s) (zeroPageByte (z + 1#8) s)

/-- The base of an indexed form, before the index is added (R174, R176); for every other form the effective address. -/
def baseAddress (m : Mode) (s : State) : Word :=
  match m with
  | .zp z => zext16 z
  | .zpx z => zext16 (z + s.x)
  | .zpy z => zext16 (z + s.y)
  | .abs a => a
  | .absx a => a
  | .absy a => a
  | .ind a => a
  | .indx z => zeroPagePointer (z + s.x) s
  | .indy z => zeroPagePointer z s
  | .impl => 0
  | .acc => 0
  | .imm _ => 0
  | .rel _ => 0
  | .brk => 0

/-- The effective address `EA` of a form with one (R171 to R176). -/
def effectiveAddress (m : Mode) (s : State) : Word :=
  match m with
  | .absx a => a + zext16 s.x
  | .absy a => a + zext16 s.y
  | .indy z => zeroPagePointer z s + zext16 s.y
  | m => baseAddress m s

/-- Page crossing of `absx`, `absy` and `indy` (R176); no other form crosses. -/
def pageCrossed (m : Mode) (s : State) : Bool := hiByte (baseAddress m s) != hiByte (effectiveAddress m s)

/-- The operand byte `M` (R170, R179, R181): the immediate, the accumulator, or one bus read at `EA`. -/
def readOperand (m : Mode) (s : State) : Byte × State :=
  match m with
  | .imm v => (v, s)
  | .acc => (s.a, s)
  | m => busRead (effectiveAddress m s) s

/-- The cycles a reading form adds (R164): one when its indexed address leaves the base's page. -/
def readExtra (m : Mode) (s : State) : Nat := if pageCrossed m s then 1 else 0

/-- The end of an instruction (R164): its cycles, with `extra`, are charged. -/
def finish (op : Byte) (extra : Nat) (s : State) : Result := .next (s.charge (s.cyclesOf op + extra))

/-- The fetch's last act (R163): PC moves past the instruction. -/
def stepOver (m : Mode) (s : State) : State := s.advance m.length

/-- An instruction that names its operands itself (R180): `f` is its pseudocode. -/
def impliedInstr (op : Byte) (f : State → State) (s : State) : Result := finish op 0 (f (stepOver .impl s))

/-- An instruction that reads its operand (R181): `f` is its pseudocode, given `M`. -/
def readInstr (op : Byte) (m : Mode) (f : Byte → State → State) (s : State) : Result :=
  let s0 := stepOver m s
  let r := readOperand m s0
  finish op (readExtra m s0) (f r.1 r.2)

/-- An instruction that stores the byte `v` gives (R181): one write and no read of `EA`, and no page penalty (R164). -/
def storeInstr (op : Byte) (m : Mode) (v : State → Byte) (s : State) : Result :=
  let s0 := stepOver m s
  finish op 0 (busWrite (effectiveAddress m s0) (v s0) s0)

/-- The write of a read-modify-write (R278): the old value first when `RMW_DUMMY_WRITE`, then the new one. -/
def modifyWrite (a : Word) (old new : Byte) (s : State) : State :=
  busWrite a new (if s.cfg.rmwDummyWrite then busWrite a old s else s)

/-- An instruction that reads, modifies and writes its operand, the accumulator or memory (R179, R278); `f` gives the result
and the status from the operand and the status. There is no page penalty (R164). -/
def modifyInstr (op : Byte) (m : Mode) (f : Byte → Status → Byte × Status) (s : State) : Result :=
  let s0 := stepOver m s
  match m with
  | .acc =>
    let r := f s0.a s0.p
    finish op 0 ((s0.setA r.1).setP r.2)
  | m =>
    let v := busRead (effectiveAddress m s0) s0
    let r := f v.1 v.2.p
    finish op 0 ((modifyWrite (effectiveAddress m s0) v.1 r.1 v.2).setP r.2)

/-- The target of a branch (R178), `pc` being the address of the instruction after it. -/
def branchTarget (pc : Word) (d : Byte) : Word := pc + sext16 d

/-- A branch (R293): taken when `cond` holds, at one cycle more, and one more again when it leaves the page. -/
def branchInstr (op : Byte) (d : Byte) (cond : Status → Bool) (s : State) : Result :=
  let s0 := stepOver (.rel d) s
  let t := branchTarget s0.pc d
  if cond s0.p then finish op (if hiByte s0.pc = hiByte t then 1 else 2) (s0.setPC t) else finish op 0 s0

/-- The target of JMP `ind` (R177), with the reads of the pointer: by `JMP_IND_PAGE_WRAP` the second byte is read from the
pointer's own page. -/
def indirectTarget (ptr : Word) (s : State) : Word × State :=
  let second := if s.cfg.jmpIndPageWrap then wordOf (loByte ptr + 1#8) (hiByte ptr) else ptr + 1#16
  let lo := busRead ptr s
  let hi := busRead second lo.2
  (wordOf lo.1 hi.1, hi.2)

end Sys2Proof.Machine
end

