-- ==== Sys2Proof/Machine/Flags.lean ====
section
/-! DEFINITION. Flag rules and arithmetic (00_scope R13, 43_arithmetic R240 to R245, 44_logic_shift R273 to R277). -/

namespace Sys2Proof.Machine

/-- `setNZ(v)` (R13) on a status. -/
def Status.withNZ (p : Status) (v : Byte) : Status := { p with n := v.getLsbD 7, z := v == 0#8 }

/-- `setNZ(v)` (R13). -/
def State.setNZ (s : State) (v : Byte) : State := s.setP (s.p.withNZ v)

/-- A result with its four arithmetic flags (R240 to R242). -/
structure AluOut where
  r : Byte
  n : Bool
  v : Bool
  z : Bool
  c : Bool
  deriving DecidableEq, Repr

/-- `addBin(a, b, c)` (R240): the exact sum, narrowed. -/
def addBin (a b : Byte) (c : Bool) : AluOut :=
  let t := a.toNat + b.toNat + c.toNat
  let r := BitVec.ofNat 8 t
  { r := r, n := r.getLsbD 7, v := (~~~(a ^^^ b) &&& (a ^^^ r) &&& 0x80#8) != 0#8, z := r == 0#8, c := decide (0xFF < t) }

/-- `subBin(a, b, c) = addBin(a, b ^ 0xFF, c)` (R240): `c` set means no borrow. -/
def subBin (a b : Byte) (c : Bool) : AluOut := addBin a (b ^^^ 0xFF#8) c

/-- The low digit of `addDec` with its carry to the high one (R241): `AL`. -/
def addDecLow (a b : Byte) (c : Bool) : Nat :=
  let al := a.toNat % 16 + b.toNat % 16 + c.toNat
  if 0x0A ≤ al then (al + 6) % 16 + 0x10 else al

/-- `addDec(a, b, c)` for `DECIMAL_MODEL = nmos` (R241): N and V come from the signed sum before the last adjustment, Z from the
binary sum. -/
def addDec (a b : Byte) (c : Bool) : AluOut :=
  let al := addDecLow a b c
  let hiA := a &&& 0xF0#8
  let hiB := b &&& 0xF0#8
  let sum := hiA.toNat + hiB.toNat + al
  let adj := if 0xA0 ≤ sum then sum + 0x60 else sum
  let t : Int := hiA.toInt + hiB.toInt + al
  { r := BitVec.ofNat 8 adj
    n := (BitVec.ofInt 8 t).getLsbD 7
    v := decide (t < -128) || decide (127 < t)
    z := BitVec.ofNat 8 (a.toNat + b.toNat + c.toNat) == 0#8
    c := decide (0x100 ≤ adj) }

/-- `subDec(a, b, c)` for `DECIMAL_MODEL = nmos` (R242): the decimal result with the flags of `subBin`. -/
def subDec (a b : Byte) (c : Bool) : AluOut :=
  let low : Int := (a.toNat % 16 : Nat) - (b.toNat % 16 : Nat) + (c.toNat : Nat) - 1
  let al : Int := if low < 0 then (low - 6) % 16 - 0x10 else low
  let sum : Int := ((a &&& 0xF0#8).toNat : Nat) - ((b &&& 0xF0#8).toNat : Nat) + al
  { subBin a b c with r := BitVec.ofInt 8 (if sum < 0 then sum - 0x60 else sum) }

/-- The result and flags of ADC (R243): decimal when `P.D` is set. -/
def adcOut (model : DecimalModel) (a m : Byte) (p : Status) : AluOut :=
  match model with
  | .nmos => if p.d then addDec a m p.c else addBin a m p.c

/-- The result and flags of SBC (R244). -/
def sbcOut (model : DecimalModel) (a m : Byte) (p : Status) : AluOut :=
  match model with
  | .nmos => if p.d then subDec a m p.c else subBin a m p.c

/-- A status with the four arithmetic flags of an output (R243, R244). -/
def Status.withAlu (p : Status) (o : AluOut) : Status := { p with n := o.n, v := o.v, z := o.z, c := o.c }

/-- `compare(R, m)` (R245) on a status: V is not written. -/
def Status.withCompare (p : Status) (r m : Byte) : Status :=
  { p with c := decide (m.toNat ≤ r.toNat), z := r == m, n := (r - m).getLsbD 7 }

/-- The flags BIT writes (R273): Z from `A & M`, N and V from the operand byte itself. -/
def Status.withBit (p : Status) (a m : Byte) : Status :=
  { p with z := (a &&& m) == 0#8, n := m.getLsbD 7, v := m.getLsbD 6 }

/-- ASL's result and status (R274). -/
def aslOut (v : Byte) (p : Status) : Byte × Status :=
  let r := v <<< 1
  (r, Status.withNZ { p with c := v.getLsbD 7 } r)

/-- LSR's result and status (R275). -/
def lsrOut (v : Byte) (p : Status) : Byte × Status :=
  let r := v >>> 1
  (r, Status.withNZ { p with c := v.getLsbD 0 } r)

/-- ROL's result and status (R276): the old carry enters bit 0. -/
def rolOut (v : Byte) (p : Status) : Byte × Status :=
  let r := (v <<< 1) ||| (BitVec.ofBool p.c).setWidth 8
  (r, Status.withNZ { p with c := v.getLsbD 7 } r)

/-- ROR's result and status (R277): the old carry enters bit 7. -/
def rorOut (v : Byte) (p : Status) : Byte × Status :=
  let r := (v >>> 1) ||| ((BitVec.ofBool p.c).setWidth 8 <<< 7)
  (r, Status.withNZ { p with c := v.getLsbD 0 } r)

/-- INC's result and status (R249). -/
def incOut (v : Byte) (p : Status) : Byte × Status := (v + 1#8, p.withNZ (v + 1#8))

/-- DEC's result and status (R250). -/
def decOut (v : Byte) (p : Status) : Byte × Status := (v - 1#8, p.withNZ (v - 1#8))

end Sys2Proof.Machine
end

