-- ==== Sys2Proof/Machine/Arithmetic.lean ====
section
/-! DEFINITION. Arithmetic, compares, increments and decrements (43_arithmetic R243 to R254). The meanings of the family: one definition for each row
of spec/opcode_table.json, over what its mnemonic does. -/

namespace Sys2Proof.Machine

/-- ADC (R243): `A + M + C`, decimal when `P.D` is set; N, V, Z, C. -/
def adcInstr (op : Byte) (m : Mode) (s : State) : Result :=
  readInstr op m (fun v t => let o := adcOut t.cfg.decimalModel t.a v t.p; (t.setA o.r).setP (t.p.withAlu o)) s

/-- R243, `imm`, 0x69. -/
def execAdcImm (v : Byte) (s : State) : Result := adcInstr 0x69#8 (.imm v) s

/-- R243, `zp`, 0x65. -/
def execAdcZp (z : Byte) (s : State) : Result := adcInstr 0x65#8 (.zp z) s

/-- R243, `zpx`, 0x75. -/
def execAdcZpx (z : Byte) (s : State) : Result := adcInstr 0x75#8 (.zpx z) s

/-- R243, `abs`, 0x6D. -/
def execAdcAbs (a : Word) (s : State) : Result := adcInstr 0x6D#8 (.abs a) s

/-- R243, `absx`, 0x7D. -/
def execAdcAbsx (a : Word) (s : State) : Result := adcInstr 0x7D#8 (.absx a) s

/-- R243, `absy`, 0x79. -/
def execAdcAbsy (a : Word) (s : State) : Result := adcInstr 0x79#8 (.absy a) s

/-- R243, `indx`, 0x61. -/
def execAdcIndx (z : Byte) (s : State) : Result := adcInstr 0x61#8 (.indx z) s

/-- R243, `indy`, 0x71. -/
def execAdcIndy (z : Byte) (s : State) : Result := adcInstr 0x71#8 (.indy z) s

/-- SBC (R244): `A - M - (1 - C)`, decimal when `P.D` is set; N, V, Z, C. -/
def sbcInstr (op : Byte) (m : Mode) (s : State) : Result :=
  readInstr op m (fun v t => let o := sbcOut t.cfg.decimalModel t.a v t.p; (t.setA o.r).setP (t.p.withAlu o)) s

/-- R244, `imm`, 0xE9. -/
def execSbcImm (v : Byte) (s : State) : Result := sbcInstr 0xE9#8 (.imm v) s

/-- R244, `zp`, 0xE5. -/
def execSbcZp (z : Byte) (s : State) : Result := sbcInstr 0xE5#8 (.zp z) s

/-- R244, `zpx`, 0xF5. -/
def execSbcZpx (z : Byte) (s : State) : Result := sbcInstr 0xF5#8 (.zpx z) s

/-- R244, `abs`, 0xED. -/
def execSbcAbs (a : Word) (s : State) : Result := sbcInstr 0xED#8 (.abs a) s

/-- R244, `absx`, 0xFD. -/
def execSbcAbsx (a : Word) (s : State) : Result := sbcInstr 0xFD#8 (.absx a) s

/-- R244, `absy`, 0xF9. -/
def execSbcAbsy (a : Word) (s : State) : Result := sbcInstr 0xF9#8 (.absy a) s

/-- R244, `indx`, 0xE1. -/
def execSbcIndx (z : Byte) (s : State) : Result := sbcInstr 0xE1#8 (.indx z) s

/-- R244, `indy`, 0xF1. -/
def execSbcIndy (z : Byte) (s : State) : Result := sbcInstr 0xF1#8 (.indy z) s

/-- CMP (R246): `compare(A, M)`. -/
def cmpInstr (op : Byte) (m : Mode) (s : State) : Result :=
  readInstr op m (fun v t => t.setP (t.p.withCompare t.a v)) s

/-- R246, `imm`, 0xC9. -/
def execCmpImm (v : Byte) (s : State) : Result := cmpInstr 0xC9#8 (.imm v) s

/-- R246, `zp`, 0xC5. -/
def execCmpZp (z : Byte) (s : State) : Result := cmpInstr 0xC5#8 (.zp z) s

/-- R246, `zpx`, 0xD5. -/
def execCmpZpx (z : Byte) (s : State) : Result := cmpInstr 0xD5#8 (.zpx z) s

/-- R246, `abs`, 0xCD. -/
def execCmpAbs (a : Word) (s : State) : Result := cmpInstr 0xCD#8 (.abs a) s

/-- R246, `absx`, 0xDD. -/
def execCmpAbsx (a : Word) (s : State) : Result := cmpInstr 0xDD#8 (.absx a) s

/-- R246, `absy`, 0xD9. -/
def execCmpAbsy (a : Word) (s : State) : Result := cmpInstr 0xD9#8 (.absy a) s

/-- R246, `indx`, 0xC1. -/
def execCmpIndx (z : Byte) (s : State) : Result := cmpInstr 0xC1#8 (.indx z) s

/-- R246, `indy`, 0xD1. -/
def execCmpIndy (z : Byte) (s : State) : Result := cmpInstr 0xD1#8 (.indy z) s

/-- CPX (R247): `compare(X, M)`. -/
def cpxInstr (op : Byte) (m : Mode) (s : State) : Result :=
  readInstr op m (fun v t => t.setP (t.p.withCompare t.x v)) s

/-- R247, `imm`, 0xE0. -/
def execCpxImm (v : Byte) (s : State) : Result := cpxInstr 0xE0#8 (.imm v) s

/-- R247, `zp`, 0xE4. -/
def execCpxZp (z : Byte) (s : State) : Result := cpxInstr 0xE4#8 (.zp z) s

/-- R247, `abs`, 0xEC. -/
def execCpxAbs (a : Word) (s : State) : Result := cpxInstr 0xEC#8 (.abs a) s

/-- CPY (R248): `compare(Y, M)`. -/
def cpyInstr (op : Byte) (m : Mode) (s : State) : Result :=
  readInstr op m (fun v t => t.setP (t.p.withCompare t.y v)) s

/-- R248, `imm`, 0xC0. -/
def execCpyImm (v : Byte) (s : State) : Result := cpyInstr 0xC0#8 (.imm v) s

/-- R248, `zp`, 0xC4. -/
def execCpyZp (z : Byte) (s : State) : Result := cpyInstr 0xC4#8 (.zp z) s

/-- R248, `abs`, 0xCC. -/
def execCpyAbs (a : Word) (s : State) : Result := cpyInstr 0xCC#8 (.abs a) s

/-- INC (R249). -/
def incInstr (op : Byte) (m : Mode) (s : State) : Result :=
  modifyInstr op m incOut s

/-- R249, `zp`, 0xE6. -/
def execIncZp (z : Byte) (s : State) : Result := incInstr 0xE6#8 (.zp z) s

/-- R249, `zpx`, 0xF6. -/
def execIncZpx (z : Byte) (s : State) : Result := incInstr 0xF6#8 (.zpx z) s

/-- R249, `abs`, 0xEE. -/
def execIncAbs (a : Word) (s : State) : Result := incInstr 0xEE#8 (.abs a) s

/-- R249, `absx`, 0xFE. -/
def execIncAbsx (a : Word) (s : State) : Result := incInstr 0xFE#8 (.absx a) s

/-- DEC (R250). -/
def decInstr (op : Byte) (m : Mode) (s : State) : Result :=
  modifyInstr op m decOut s

/-- R250, `zp`, 0xC6. -/
def execDecZp (z : Byte) (s : State) : Result := decInstr 0xC6#8 (.zp z) s

/-- R250, `zpx`, 0xD6. -/
def execDecZpx (z : Byte) (s : State) : Result := decInstr 0xD6#8 (.zpx z) s

/-- R250, `abs`, 0xCE. -/
def execDecAbs (a : Word) (s : State) : Result := decInstr 0xCE#8 (.abs a) s

/-- R250, `absx`, 0xDE. -/
def execDecAbsx (a : Word) (s : State) : Result := decInstr 0xDE#8 (.absx a) s

/-- INX, R251, 0xE8: `X <- (X + 1) & 0xFF; setNZ(X)`. -/
def execInx (s : State) : Result :=
  impliedInstr 0xE8#8 (fun t => (t.setX (t.x + 1#8)).setNZ (t.x + 1#8)) s

/-- INY, R252, 0xC8: `Y <- (Y + 1) & 0xFF; setNZ(Y)`. -/
def execIny (s : State) : Result :=
  impliedInstr 0xC8#8 (fun t => (t.setY (t.y + 1#8)).setNZ (t.y + 1#8)) s

/-- DEX, R253, 0xCA: `X <- (X - 1) & 0xFF; setNZ(X)`. -/
def execDex (s : State) : Result :=
  impliedInstr 0xCA#8 (fun t => (t.setX (t.x - 1#8)).setNZ (t.x - 1#8)) s

/-- DEY, R254, 0x88: `Y <- (Y - 1) & 0xFF; setNZ(Y)`. -/
def execDey (s : State) : Result :=
  impliedInstr 0x88#8 (fun t => (t.setY (t.y - 1#8)).setNZ (t.y - 1#8)) s

end Sys2Proof.Machine
end

