-- ==== Sys2Proof/Machine/Control.lean ====
section
/-! DEFINITION. Jumps, subroutines, branches, BRK, RTI, NOP (45_control R290 to R304), and the illegal opcodes (60_exceptions R410). The meanings of the family: one definition for each row
of spec/opcode_table.json, over what its mnemonic does. -/

namespace Sys2Proof.Machine

/-- JMP, R290, `abs`, 0x4C: `PC <- b1 | b2 << 8`. -/
def execJmpAbs (a : Word) (s : State) : Result :=
  finish 0x4C#8 0 ((stepOver (.abs a) s).setPC a)

/-- JMP, R290, `ind`, 0x6C: PC is read from the pointer (R177). -/
def execJmpInd (a : Word) (s : State) : Result :=
  let r := indirectTarget a (stepOver (.ind a) s)
  finish 0x6C#8 0 (r.2.setPC r.1)

/-- JSR, R291, 0x20: the address of the instruction's last byte is pushed, high byte first. -/
def execJsr (a : Word) (s : State) : Result :=
  let s0 := stepOver (.abs a) s
  finish 0x20#8 0 ((pushWord (s0.pc - 1#16) s0).setPC a)

/-- RTS, R292, 0x60: PC from the stack, plus 1. -/
def execRts (s : State) : Result :=
  impliedInstr 0x60#8 (fun t => let r := pullWord t; r.2.setPC (r.1 + 1#16)) s

/-- BCC, R294, 0x90: branch if carry clear. -/
def execBcc (d : Byte) (s : State) : Result :=
  branchInstr 0x90#8 d (fun p => !p.c) s

/-- BCS, R295, 0xB0: branch if carry set. -/
def execBcs (d : Byte) (s : State) : Result :=
  branchInstr 0xB0#8 d (fun p => p.c) s

/-- BEQ, R296, 0xF0: branch if Z set. -/
def execBeq (d : Byte) (s : State) : Result :=
  branchInstr 0xF0#8 d (fun p => p.z) s

/-- BMI, R297, 0x30: branch if N set. -/
def execBmi (d : Byte) (s : State) : Result :=
  branchInstr 0x30#8 d (fun p => p.n) s

/-- BNE, R298, 0xD0: branch if Z clear. -/
def execBne (d : Byte) (s : State) : Result :=
  branchInstr 0xD0#8 d (fun p => !p.z) s

/-- BPL, R299, 0x10: branch if N clear. -/
def execBpl (d : Byte) (s : State) : Result :=
  branchInstr 0x10#8 d (fun p => !p.n) s

/-- BVC, R300, 0x50: branch if V clear. -/
def execBvc (d : Byte) (s : State) : Result :=
  branchInstr 0x50#8 d (fun p => !p.v) s

/-- BVS, R301, 0x70: branch if V set. -/
def execBvs (d : Byte) (s : State) : Result :=
  branchInstr 0x70#8 d (fun p => p.v) s

/-- BRK, R302, 0x00: the interrupt entry with break bit 1 and the IRQ vector; the signature byte is skipped. -/
def execBrk (s : State) : Result :=
  finish 0x00#8 0 (takeInterrupt true 0xFFFE#16 (stepOver .brk s))

/-- RTI, R303, 0x40: the status, then PC, from the stack. -/
def execRti (s : State) : Result :=
  impliedInstr 0x40#8 returnInterrupt s

/-- NOP, R304, 0xEA: only the PC advance and the cycles. -/
def execNop (s : State) : Result :=
  impliedInstr 0xEA#8 (fun t => t) s

/-- An illegal opcode, R410: the core halts, and records the byte and its address; nothing else changes: PC is not advanced and
no cycle is charged. -/
def execIllegal (op : Byte) (s : State) : Result :=
  .next { s with halted := true, haltPC := s.pc, haltOp := op }

end Sys2Proof.Machine
end

