-- ==== Sys2Proof/Machine/FlagOps.lean ====
section
/-! DEFINITION. Flag set and clear (46_flags R320 to R326). The meanings of the family: one definition for each row
of spec/opcode_table.json, over what its mnemonic does. -/

namespace Sys2Proof.Machine

/-- CLC, R320, 0x18: `P.C <- 0`. -/
def execClc (s : State) : Result :=
  impliedInstr 0x18#8 (fun t => t.setP { t.p with c := false }) s

/-- CLD, R321, 0xD8: `P.D <- 0`. -/
def execCld (s : State) : Result :=
  impliedInstr 0xD8#8 (fun t => t.setP { t.p with d := false }) s

/-- CLI, R322, 0x58: `P.I <- 0`. -/
def execCli (s : State) : Result :=
  impliedInstr 0x58#8 (fun t => t.setP { t.p with i := false }) s

/-- CLV, R323, 0xB8: `P.V <- 0`. -/
def execClv (s : State) : Result :=
  impliedInstr 0xB8#8 (fun t => t.setP { t.p with v := false }) s

/-- SEC, R324, 0x38: `P.C <- 1`. -/
def execSec (s : State) : Result :=
  impliedInstr 0x38#8 (fun t => t.setP { t.p with c := true }) s

/-- SED, R325, 0xF8: `P.D <- 1`. -/
def execSed (s : State) : Result :=
  impliedInstr 0xF8#8 (fun t => t.setP { t.p with d := true }) s

/-- SEI, R326, 0x78: `P.I <- 1`. -/
def execSei (s : State) : Result :=
  impliedInstr 0x78#8 (fun t => t.setP { t.p with i := true }) s

end Sys2Proof.Machine
end

