-- ==== Sys2Proof/Machine/LoadStore.lean ====
section
/-! DEFINITION. Loads and stores (41_load_store R200 to R205). The meanings of the family: one definition for each row
of spec/opcode_table.json, over what its mnemonic does. -/

namespace Sys2Proof.Machine

/-- LDA (R200): `A <- M; setNZ(A)`. -/
def ldaInstr (op : Byte) (m : Mode) (s : State) : Result :=
  readInstr op m (fun v t => (t.setA v).setNZ v) s

/-- R200, `imm`, 0xA9. -/
def execLdaImm (v : Byte) (s : State) : Result := ldaInstr 0xA9#8 (.imm v) s

/-- R200, `zp`, 0xA5. -/
def execLdaZp (z : Byte) (s : State) : Result := ldaInstr 0xA5#8 (.zp z) s

/-- R200, `zpx`, 0xB5. -/
def execLdaZpx (z : Byte) (s : State) : Result := ldaInstr 0xB5#8 (.zpx z) s

/-- R200, `abs`, 0xAD. -/
def execLdaAbs (a : Word) (s : State) : Result := ldaInstr 0xAD#8 (.abs a) s

/-- R200, `absx`, 0xBD. -/
def execLdaAbsx (a : Word) (s : State) : Result := ldaInstr 0xBD#8 (.absx a) s

/-- R200, `absy`, 0xB9. -/
def execLdaAbsy (a : Word) (s : State) : Result := ldaInstr 0xB9#8 (.absy a) s

/-- R200, `indx`, 0xA1. -/
def execLdaIndx (z : Byte) (s : State) : Result := ldaInstr 0xA1#8 (.indx z) s

/-- R200, `indy`, 0xB1. -/
def execLdaIndy (z : Byte) (s : State) : Result := ldaInstr 0xB1#8 (.indy z) s

/-- LDX (R201): `X <- M; setNZ(X)`. -/
def ldxInstr (op : Byte) (m : Mode) (s : State) : Result :=
  readInstr op m (fun v t => (t.setX v).setNZ v) s

/-- R201, `imm`, 0xA2. -/
def execLdxImm (v : Byte) (s : State) : Result := ldxInstr 0xA2#8 (.imm v) s

/-- R201, `zp`, 0xA6. -/
def execLdxZp (z : Byte) (s : State) : Result := ldxInstr 0xA6#8 (.zp z) s

/-- R201, `zpy`, 0xB6. -/
def execLdxZpy (z : Byte) (s : State) : Result := ldxInstr 0xB6#8 (.zpy z) s

/-- R201, `abs`, 0xAE. -/
def execLdxAbs (a : Word) (s : State) : Result := ldxInstr 0xAE#8 (.abs a) s

/-- R201, `absy`, 0xBE. -/
def execLdxAbsy (a : Word) (s : State) : Result := ldxInstr 0xBE#8 (.absy a) s

/-- LDY (R202): `Y <- M; setNZ(Y)`. -/
def ldyInstr (op : Byte) (m : Mode) (s : State) : Result :=
  readInstr op m (fun v t => (t.setY v).setNZ v) s

/-- R202, `imm`, 0xA0. -/
def execLdyImm (v : Byte) (s : State) : Result := ldyInstr 0xA0#8 (.imm v) s

/-- R202, `zp`, 0xA4. -/
def execLdyZp (z : Byte) (s : State) : Result := ldyInstr 0xA4#8 (.zp z) s

/-- R202, `zpx`, 0xB4. -/
def execLdyZpx (z : Byte) (s : State) : Result := ldyInstr 0xB4#8 (.zpx z) s

/-- R202, `abs`, 0xAC. -/
def execLdyAbs (a : Word) (s : State) : Result := ldyInstr 0xAC#8 (.abs a) s

/-- R202, `absx`, 0xBC. -/
def execLdyAbsx (a : Word) (s : State) : Result := ldyInstr 0xBC#8 (.absx a) s

/-- STA (R203): `MemWrite(EA, 1, A)`. -/
def staInstr (op : Byte) (m : Mode) (s : State) : Result :=
  storeInstr op m (fun t => t.a) s

/-- R203, `zp`, 0x85. -/
def execStaZp (z : Byte) (s : State) : Result := staInstr 0x85#8 (.zp z) s

/-- R203, `zpx`, 0x95. -/
def execStaZpx (z : Byte) (s : State) : Result := staInstr 0x95#8 (.zpx z) s

/-- R203, `abs`, 0x8D. -/
def execStaAbs (a : Word) (s : State) : Result := staInstr 0x8D#8 (.abs a) s

/-- R203, `absx`, 0x9D. -/
def execStaAbsx (a : Word) (s : State) : Result := staInstr 0x9D#8 (.absx a) s

/-- R203, `absy`, 0x99. -/
def execStaAbsy (a : Word) (s : State) : Result := staInstr 0x99#8 (.absy a) s

/-- R203, `indx`, 0x81. -/
def execStaIndx (z : Byte) (s : State) : Result := staInstr 0x81#8 (.indx z) s

/-- R203, `indy`, 0x91. -/
def execStaIndy (z : Byte) (s : State) : Result := staInstr 0x91#8 (.indy z) s

/-- STX (R204): `MemWrite(EA, 1, X)`. -/
def stxInstr (op : Byte) (m : Mode) (s : State) : Result :=
  storeInstr op m (fun t => t.x) s

/-- R204, `zp`, 0x86. -/
def execStxZp (z : Byte) (s : State) : Result := stxInstr 0x86#8 (.zp z) s

/-- R204, `zpy`, 0x96. -/
def execStxZpy (z : Byte) (s : State) : Result := stxInstr 0x96#8 (.zpy z) s

/-- R204, `abs`, 0x8E. -/
def execStxAbs (a : Word) (s : State) : Result := stxInstr 0x8E#8 (.abs a) s

/-- STY (R205): `MemWrite(EA, 1, Y)`. -/
def styInstr (op : Byte) (m : Mode) (s : State) : Result :=
  storeInstr op m (fun t => t.y) s

/-- R205, `zp`, 0x84. -/
def execStyZp (z : Byte) (s : State) : Result := styInstr 0x84#8 (.zp z) s

/-- R205, `zpx`, 0x94. -/
def execStyZpx (z : Byte) (s : State) : Result := styInstr 0x94#8 (.zpx z) s

/-- R205, `abs`, 0x8C. -/
def execStyAbs (a : Word) (s : State) : Result := styInstr 0x8C#8 (.abs a) s

end Sys2Proof.Machine
end

