-- ==== Sys2Proof/Machine/LogicShift.lean ====
section
/-! DEFINITION. Logic, bit test, shifts and rotates (44_logic_shift R270 to R278). The meanings of the family: one definition for each row
of spec/opcode_table.json, over what its mnemonic does. -/

namespace Sys2Proof.Machine

/-- AND (R270): `A <- A & M; setNZ(A)`. -/
def andInstr (op : Byte) (m : Mode) (s : State) : Result :=
  readInstr op m (fun v t => (t.setA (t.a &&& v)).setNZ (t.a &&& v)) s

/-- R270, `imm`, 0x29. -/
def execAndImm (v : Byte) (s : State) : Result := andInstr 0x29#8 (.imm v) s

/-- R270, `zp`, 0x25. -/
def execAndZp (z : Byte) (s : State) : Result := andInstr 0x25#8 (.zp z) s

/-- R270, `zpx`, 0x35. -/
def execAndZpx (z : Byte) (s : State) : Result := andInstr 0x35#8 (.zpx z) s

/-- R270, `abs`, 0x2D. -/
def execAndAbs (a : Word) (s : State) : Result := andInstr 0x2D#8 (.abs a) s

/-- R270, `absx`, 0x3D. -/
def execAndAbsx (a : Word) (s : State) : Result := andInstr 0x3D#8 (.absx a) s

/-- R270, `absy`, 0x39. -/
def execAndAbsy (a : Word) (s : State) : Result := andInstr 0x39#8 (.absy a) s

/-- R270, `indx`, 0x21. -/
def execAndIndx (z : Byte) (s : State) : Result := andInstr 0x21#8 (.indx z) s

/-- R270, `indy`, 0x31. -/
def execAndIndy (z : Byte) (s : State) : Result := andInstr 0x31#8 (.indy z) s

/-- ORA (R271): `A <- A | M; setNZ(A)`. -/
def oraInstr (op : Byte) (m : Mode) (s : State) : Result :=
  readInstr op m (fun v t => (t.setA (t.a ||| v)).setNZ (t.a ||| v)) s

/-- R271, `imm`, 0x09. -/
def execOraImm (v : Byte) (s : State) : Result := oraInstr 0x09#8 (.imm v) s

/-- R271, `zp`, 0x05. -/
def execOraZp (z : Byte) (s : State) : Result := oraInstr 0x05#8 (.zp z) s

/-- R271, `zpx`, 0x15. -/
def execOraZpx (z : Byte) (s : State) : Result := oraInstr 0x15#8 (.zpx z) s

/-- R271, `abs`, 0x0D. -/
def execOraAbs (a : Word) (s : State) : Result := oraInstr 0x0D#8 (.abs a) s

/-- R271, `absx`, 0x1D. -/
def execOraAbsx (a : Word) (s : State) : Result := oraInstr 0x1D#8 (.absx a) s

/-- R271, `absy`, 0x19. -/
def execOraAbsy (a : Word) (s : State) : Result := oraInstr 0x19#8 (.absy a) s

/-- R271, `indx`, 0x01. -/
def execOraIndx (z : Byte) (s : State) : Result := oraInstr 0x01#8 (.indx z) s

/-- R271, `indy`, 0x11. -/
def execOraIndy (z : Byte) (s : State) : Result := oraInstr 0x11#8 (.indy z) s

/-- EOR (R272): `A <- A ^ M; setNZ(A)`. -/
def eorInstr (op : Byte) (m : Mode) (s : State) : Result :=
  readInstr op m (fun v t => (t.setA (t.a ^^^ v)).setNZ (t.a ^^^ v)) s

/-- R272, `imm`, 0x49. -/
def execEorImm (v : Byte) (s : State) : Result := eorInstr 0x49#8 (.imm v) s

/-- R272, `zp`, 0x45. -/
def execEorZp (z : Byte) (s : State) : Result := eorInstr 0x45#8 (.zp z) s

/-- R272, `zpx`, 0x55. -/
def execEorZpx (z : Byte) (s : State) : Result := eorInstr 0x55#8 (.zpx z) s

/-- R272, `abs`, 0x4D. -/
def execEorAbs (a : Word) (s : State) : Result := eorInstr 0x4D#8 (.abs a) s

/-- R272, `absx`, 0x5D. -/
def execEorAbsx (a : Word) (s : State) : Result := eorInstr 0x5D#8 (.absx a) s

/-- R272, `absy`, 0x59. -/
def execEorAbsy (a : Word) (s : State) : Result := eorInstr 0x59#8 (.absy a) s

/-- R272, `indx`, 0x41. -/
def execEorIndx (z : Byte) (s : State) : Result := eorInstr 0x41#8 (.indx z) s

/-- R272, `indy`, 0x51. -/
def execEorIndy (z : Byte) (s : State) : Result := eorInstr 0x51#8 (.indy z) s

/-- BIT (R273): Z from `A & M`, N and V from `M`; A is not written. -/
def bitInstr (op : Byte) (m : Mode) (s : State) : Result :=
  readInstr op m (fun v t => t.setP (t.p.withBit t.a v)) s

/-- R273, `zp`, 0x24. -/
def execBitZp (z : Byte) (s : State) : Result := bitInstr 0x24#8 (.zp z) s

/-- R273, `abs`, 0x2C. -/
def execBitAbs (a : Word) (s : State) : Result := bitInstr 0x2C#8 (.abs a) s

/-- ASL (R274). -/
def aslInstr (op : Byte) (m : Mode) (s : State) : Result :=
  modifyInstr op m aslOut s

/-- R274, `zp`, 0x06. -/
def execAslZp (z : Byte) (s : State) : Result := aslInstr 0x06#8 (.zp z) s

/-- R274, `zpx`, 0x16. -/
def execAslZpx (z : Byte) (s : State) : Result := aslInstr 0x16#8 (.zpx z) s

/-- R274, `abs`, 0x0E. -/
def execAslAbs (a : Word) (s : State) : Result := aslInstr 0x0E#8 (.abs a) s

/-- R274, `absx`, 0x1E. -/
def execAslAbsx (a : Word) (s : State) : Result := aslInstr 0x1E#8 (.absx a) s

/-- R274, `acc`, 0x0A. -/
def execAslAcc (s : State) : Result := aslInstr 0x0A#8 .acc s

/-- LSR (R275). -/
def lsrInstr (op : Byte) (m : Mode) (s : State) : Result :=
  modifyInstr op m lsrOut s

/-- R275, `zp`, 0x46. -/
def execLsrZp (z : Byte) (s : State) : Result := lsrInstr 0x46#8 (.zp z) s

/-- R275, `zpx`, 0x56. -/
def execLsrZpx (z : Byte) (s : State) : Result := lsrInstr 0x56#8 (.zpx z) s

/-- R275, `abs`, 0x4E. -/
def execLsrAbs (a : Word) (s : State) : Result := lsrInstr 0x4E#8 (.abs a) s

/-- R275, `absx`, 0x5E. -/
def execLsrAbsx (a : Word) (s : State) : Result := lsrInstr 0x5E#8 (.absx a) s

/-- R275, `acc`, 0x4A. -/
def execLsrAcc (s : State) : Result := lsrInstr 0x4A#8 .acc s

/-- ROL (R276). -/
def rolInstr (op : Byte) (m : Mode) (s : State) : Result :=
  modifyInstr op m rolOut s

/-- R276, `zp`, 0x26. -/
def execRolZp (z : Byte) (s : State) : Result := rolInstr 0x26#8 (.zp z) s

/-- R276, `zpx`, 0x36. -/
def execRolZpx (z : Byte) (s : State) : Result := rolInstr 0x36#8 (.zpx z) s

/-- R276, `abs`, 0x2E. -/
def execRolAbs (a : Word) (s : State) : Result := rolInstr 0x2E#8 (.abs a) s

/-- R276, `absx`, 0x3E. -/
def execRolAbsx (a : Word) (s : State) : Result := rolInstr 0x3E#8 (.absx a) s

/-- R276, `acc`, 0x2A. -/
def execRolAcc (s : State) : Result := rolInstr 0x2A#8 .acc s

/-- ROR (R277). -/
def rorInstr (op : Byte) (m : Mode) (s : State) : Result :=
  modifyInstr op m rorOut s

/-- R277, `zp`, 0x66. -/
def execRorZp (z : Byte) (s : State) : Result := rorInstr 0x66#8 (.zp z) s

/-- R277, `zpx`, 0x76. -/
def execRorZpx (z : Byte) (s : State) : Result := rorInstr 0x76#8 (.zpx z) s

/-- R277, `abs`, 0x6E. -/
def execRorAbs (a : Word) (s : State) : Result := rorInstr 0x6E#8 (.abs a) s

/-- R277, `absx`, 0x7E. -/
def execRorAbsx (a : Word) (s : State) : Result := rorInstr 0x7E#8 (.absx a) s

/-- R277, `acc`, 0x6A. -/
def execRorAcc (s : State) : Result := rorInstr 0x6A#8 .acc s

end Sys2Proof.Machine
end

