-- ==== Sys2Proof/Machine/TransferStack.lean ====
section
/-! DEFINITION. Register transfers and the stack instructions (42_transfer_stack R220 to R229). The meanings of the family: one definition for each row
of spec/opcode_table.json, over what its mnemonic does. -/

namespace Sys2Proof.Machine

/-- TAX, R220, 0xAA: `X <- A; setNZ(X)`. -/
def execTax (s : State) : Result :=
  impliedInstr 0xAA#8 (fun t => (t.setX t.a).setNZ t.a) s

/-- TAY, R221, 0xA8: `Y <- A; setNZ(Y)`. -/
def execTay (s : State) : Result :=
  impliedInstr 0xA8#8 (fun t => (t.setY t.a).setNZ t.a) s

/-- TXA, R222, 0x8A: `A <- X; setNZ(A)`. -/
def execTxa (s : State) : Result :=
  impliedInstr 0x8A#8 (fun t => (t.setA t.x).setNZ t.x) s

/-- TYA, R223, 0x98: `A <- Y; setNZ(A)`. -/
def execTya (s : State) : Result :=
  impliedInstr 0x98#8 (fun t => (t.setA t.y).setNZ t.y) s

/-- TSX, R224, 0xBA: `X <- SP; setNZ(X)`. -/
def execTsx (s : State) : Result :=
  impliedInstr 0xBA#8 (fun t => (t.setX t.sp).setNZ t.sp) s

/-- TXS, R225, 0x9A: `SP <- X`, no flag. -/
def execTxs (s : State) : Result :=
  impliedInstr 0x9A#8 (fun t => t.setSP t.x) s

/-- PHA, R226, 0x48: `Push(A)`. -/
def execPha (s : State) : Result :=
  impliedInstr 0x48#8 (fun t => push t.a t) s

/-- PHP, R227, 0x08: `Push(pack(P, 1))`. -/
def execPhp (s : State) : Result :=
  impliedInstr 0x08#8 (fun t => push (t.p.pack true) t) s

/-- PLA, R228, 0x68: `A <- Pull(); setNZ(A)`. -/
def execPla (s : State) : Result :=
  impliedInstr 0x68#8 (fun t => let r := pull t; (r.2.setA r.1).setNZ r.1) s

/-- PLP, R229, 0x28: P from the stack, bits 5 and 4 discarded. -/
def execPlp (s : State) : Result :=
  impliedInstr 0x28#8 pullStatus s

end Sys2Proof.Machine
end

