-- ==== Sys2Proof/Machine/HostActs.lean ====
section
/-! DEFINITION. The host's acts on the core (60_exceptions R460 to R468) and the reset (70_reset_and_hazards R800 to R804).
A host act is one atomic step at a boundary; which boundary is free (R461) and stands in the state's `hostPlan`
(notes/assumptions/9.md). -/

namespace Sys2Proof.Machine

/-- Why the host's request is refused; a refused request changes no state (93_implementation_defined I42 to I44). -/
inductive HostRefusal where
  /-- An image of fewer than 2 bytes (R464). -/
  | shortImage
  /-- A call while another call runs, or while the core is halted (R468). -/
  | cannotInject
  /-- A reset of a halted core while `RESET_ON_HALT` is false (R804). -/
  | resetOnHalt
  /-- Any other act on a halted core (R410; notes/assumptions/10.md). -/
  | halted
  deriving DecidableEq, Repr

/-- The values a reset leaves to draws (R800 rows 1, 11, 12). -/
structure ResetDraws where
  a : Byte
  x : Byte
  y : Byte
  sp : Byte
  flags : Byte
  haltPC : Word
  haltOp : Byte
  deriving DecidableEq, Repr

/-- The status after a reset (R46): `I` is set and the other flags are the draw's bits. -/
def Status.ofReset (v : Byte) : Status := { Status.ofByte v (v.getLsbD 4) with i := true }

/-- `reset()` (R800), given the values it leaves to draws: every register file and counter is initialised, RAM, colour memory
and the ROM images are kept, and PC is read from 0xFFFC through the bus (R802). The line loop starts over (R803). -/
def resetWith (d : ResetDraws) (s : State) : State :=
  let s1 : State :=
    { s with
      a := d.a, x := d.x, y := d.y, sp := d.sp, p := Status.ofReset d.flags
      halted := false, haltPC := d.haltPC, haltOp := d.haltOp, nmiAck := true, lineCycles := 0, sinceCheck := 0
      phase := .lineStart, bankByte := s.cfg.resetBankByte, vic := Vic.reset, cia1 := Cia.reset, cia2 := Cia.reset
      sid := Sid.reset, inject := none }
  let r := busRead16 0xFFFC#16 s1
  r.2.setPC r.1

/-- The draws of a reset at draw number `n`: eight of them. -/
def resetDraws (n : Nat) : ResetDraws :=
  { a := Config.freeByte n
    x := Config.freeByte (n + 1)
    y := Config.freeByte (n + 2)
    sp := Config.freeByte (n + 3)
    flags := Config.freeByte (n + 4)
    haltPC := wordOf (Config.freeByte (n + 5)) (Config.freeByte (n + 6))
    haltOp := Config.freeByte (n + 7) }

/-- The host's reset, HT9 (R800). -/
def hostReset (s : State) : State := resetWith (resetDraws s.draws) { s with draws := s.draws + 8 }

/-- The CPU registers as `injectSubroutine` saves them (R462). -/
def State.saved (s : State) : Saved := { a := s.a, x := s.x, y := s.y, sp := s.sp, p := s.p, pc := s.pc }

/-- The CPU registers restored (R462). -/
def State.restore (s : State) (r : Saved) : State :=
  { s with a := r.a, x := r.x, y := r.y, sp := r.sp, p := r.p, pc := r.pc, inject := none }

/-- The start of `injectSubroutine(addr, a, x, y)`, HT3 (R462): the registers are saved, the arguments set, the return address
pushed as JSR does, and PC set. -/
def startInject (addr : Word) (a x y : Byte) (s : State) : State :=
  let s1 := { s with a := a, x := x, y := y, inject := some s.saved }
  (pushWord (s1.pc - 1#16) s1).setPC addr

/-- Bytes stored in RAM from an address on, modulo 0x10000, not through the bus (R464). -/
def storeBytes (a : Word) : List Byte → State → State
  | [], s => s
  | v :: rest, s => storeBytes (a + 1#16) rest (s.setRam a v)

/-- The program-image load, HT5 (R464): a two-byte little-endian load address, then the bytes. -/
def loadImage (image : List Byte) (s : State) : Except HostRefusal State :=
  match image with
  | lo :: hi :: rest => .ok (storeBytes (wordOf lo hi) rest s)
  | _ => .error .shortImage

/-- A little-endian word of RAM, not through the bus (R465). -/
def ramWord (s : State) (a : Word) : Word := wordOf (s.ram.read a.toNat) (s.ram.read (a + 1#16).toNat)

/-- The program image the host is given at a save, HT6 (R465): the start address, then RAM from it up to, and not including, the
end address. -/
def saveImage (s : State) : List Byte :=
  let start := ramWord s s.cfg.saveStartPtr
  let stop := ramWord s s.cfg.saveEndPtr
  [loByte start, hiByte start] ++ (List.range (stop.toNat - start.toNat)).map (fun i => s.ram.read (start.toNat + i))

/-- One host act (R460) on a core that is not halted and runs no injected subroutine. -/
def runAct (act : HostAct) (s : State) : Except HostRefusal State :=
  match act with
  | .todTick id => .ok (todTick id s)
  | .inject addr a x y => .ok (startInject addr a x y s)
  | .setPC addr => .ok (s.setPC addr)
  | .loadImage image => loadImage image s
  | .saveImage => .ok s
  | .reset => .ok (hostReset s)

/-- One host act (R460): a halted core takes a reset alone, and that only when `RESET_ON_HALT` (R411, R804); no act takes place
while an injected subroutine runs (R461, R468). -/
def hostAct (act : HostAct) (s : State) : Except HostRefusal State :=
  if s.halted then
    match act with
    | .reset => if s.cfg.resetOnHalt then .ok (hostReset s) else .error .resetOnHalt
    | .inject _ _ _ _ => .error .cannotInject
    | _ => .error .halted
  else if s.inject.isSome then .error .cannotInject
  else runAct act s

end Sys2Proof.Machine
end

