-- ==== Sys2Proof/Machine/Render.lean ====
section
/-! DEFINITION. Rendering a raster line (62_video_chip R640 to R678): the chip's own view of memory, the graphics of the five
modes, the sprites, the collisions, the border. -/

namespace Sys2Proof.Machine

/-- The 16 KB bank the chip reads (R640): `3 - (outA(CIA2) & 3)`. -/
def State.videoBank (s : State) : Nat := 3 - s.cia2.outA.toNat % 4

/-- `VicRead(off)` (R640): the selected bank of RAM, with the character ROM at 0x1000 to 0x1FFF of banks 0 and 2. `off` is taken
modulo 0x4000. -/
def videoRead (s : State) (off : Nat) : Byte :=
  let off := off % 0x4000
  let bank := s.videoBank
  if bank % 2 = 0 ∧ 0x1000 ≤ off ∧ off ≤ 0x1FFF then Memory.read (w := 8) s.cfg.charRom (off - 0x1000)
  else s.ram.read (bank * 0x4000 + off)

/-- The screen matrix base `vm` (R615, R641). -/
def Vic.screenBase (v : Vic) : Nat := (v.reg 0x18).toNat / 16 * 0x400

/-- The character set base `cb` (R615, R641). -/
def Vic.charBase (v : Vic) : Nat := (v.reg 0x18).toNat / 2 % 8 * 0x800

/-- The bitmap base `bm` (R615, R641). -/
def Vic.bitmapBase (v : Vic) : Nat := (v.reg 0x18).toNat / 8 % 2 * 0x2000

/-- A pixel of a line: its colour, and whether it counts as foreground (R650). -/
structure Pixel where
  colour : Colour
  fg : Bool
  deriving DecidableEq, Repr

/-- What the cell-drawing rules read of a character cell (R655): its screen code, its colour nibble, the number of the cell, the
pixel line within it and the pixel within the line. -/
structure Cell where
  sc : Byte
  col : Colour
  k : Nat
  line : Nat
  b : Nat
  deriving DecidableEq, Repr

/-- The pair of bits of a double-width pixel (R657): bits `7 - (b & 6)` and `6 - (b & 6)` of `d`. -/
def pixelPair (d : Byte) (b : Nat) : Nat := d.toNat / 2 ^ (6 - b / 2 * 2) % 4

/-- Standard character mode (R656), with the foreground colour given. -/
def standardChar (s : State) (c : Cell) (col : Colour) : Pixel :=
  let d := videoRead s (s.vic.charBase + c.sc.toNat * 8 + c.line)
  if d.getLsbD (7 - c.b) then ⟨col, true⟩ else ⟨s.vic.colour 0x21, false⟩

/-- Multicolour character mode (R657). -/
def multicolourChar (s : State) (c : Cell) : Pixel :=
  let low : Colour := c.col &&& 7#4
  if c.col.getLsbD 3 then
    let d := videoRead s (s.vic.charBase + c.sc.toNat * 8 + c.line)
    match pixelPair d c.b with
    | 0 => ⟨s.vic.colour 0x21, false⟩
    | 1 => ⟨s.vic.colour 0x22, false⟩
    | 2 => ⟨s.vic.colour 0x23, true⟩
    | _ => ⟨low, true⟩
  else standardChar s c low

/-- Standard bitmap mode (R658). -/
def standardBitmap (s : State) (c : Cell) : Pixel :=
  let d := videoRead s (s.vic.bitmapBase + c.k * 8 + c.line)
  if d.getLsbD (7 - c.b) then ⟨c.sc.extractLsb' 4 4, true⟩ else ⟨c.sc.extractLsb' 0 4, false⟩

/-- Multicolour bitmap mode (R659). -/
def multicolourBitmap (s : State) (c : Cell) : Pixel :=
  let d := videoRead s (s.vic.bitmapBase + c.k * 8 + c.line)
  match pixelPair d c.b with
  | 0 => ⟨s.vic.colour 0x21, false⟩
  | 1 => ⟨c.sc.extractLsb' 4 4, false⟩
  | 2 => ⟨c.sc.extractLsb' 0 4, true⟩
  | _ => ⟨c.col, true⟩

/-- Extended-background-colour character mode (R660). -/
def extendedChar (s : State) (c : Cell) : Pixel :=
  let d := videoRead s (s.vic.charBase + c.sc.toNat % 64 * 8 + c.line)
  if d.getLsbD (7 - c.b) then ⟨c.col, true⟩ else ⟨s.vic.colour (0x21 + c.sc.toNat / 64), false⟩

/-- Mode selection by (ECM, BMM, MCM) (R655); a mode with ECM and another bit set is invalid (R661). -/
def cellPixel (s : State) (c : Cell) : Pixel :=
  match s.vic.ecm, s.vic.bmm, s.vic.mcm with
  | false, false, false => standardChar s c c.col
  | false, false, true => multicolourChar s c
  | false, true, false => standardBitmap s c
  | false, true, true => multicolourBitmap s c
  | true, false, false => extendedChar s c
  | _, _, _ => ⟨0#4, false⟩

/-- The invalid mode combinations (R661): every graphics pixel of a line is colour 0. -/
def Vic.invalidMode (v : Vic) : Bool := v.ecm && (v.bmm || v.mcm)

/-- The graphics pixel of raster line `r` at frame column `x` (R651, R654 to R661). -/
def graphicsPixel (s : State) (r x : Nat) : Pixel :=
  let ys := s.vic.yscroll.toNat
  let xs := s.vic.xscroll.toNat
  if s.vic.invalidMode then ⟨0#4, false⟩
  else if r < 0x30 + ys ∨ 0x30 + ys + 199 < r ∨ x < xs then ⟨s.vic.colour 0x21, false⟩
  else
    let g := r - 0x30 - ys
    let px := x - xs
    let k := g / 8 * 40 + px / 8
    cellPixel s
      { sc := videoRead s (s.vic.screenBase + k), col := s.color.read k, k := k, line := g % 8, b := px % 8 }

/-- Bit `n` of the register at index `i`: sprite `n`'s bit of a sprite control register. -/
def Vic.spriteBit (v : Vic) (i n : Nat) : Bool := (v.reg i).getLsbD n

/-- Sprite `n`'s X position (R670). -/
def Vic.spriteX (v : Vic) (n : Nat) : Nat := (v.reg (2 * n)).toNat + if v.spriteBit 0x10 n then 256 else 0

/-- Sprite `n`'s Y position (R670). -/
def Vic.spriteY (v : Vic) (n : Nat) : Nat := (v.reg (2 * n + 1)).toNat

/-- The pixel row of sprite `n` on raster line `r` (R670), when the sprite is enabled and on that line. -/
def spriteRow (v : Vic) (n r : Nat) : Option Nat :=
  let tall := v.spriteBit 0x17 n
  let top := v.spriteY n + 1
  if v.spriteBit 0x15 n && decide (top ≤ r) && decide (r < top + if tall then 42 else 21) then
    some ((r - top) / if tall then 2 else 1)
  else none

/-- The column of the unexpanded sprite `n` that frame column `x` shows (R670, R671). -/
def spriteColumn (v : Vic) (n x : Nat) : Option Nat :=
  let wide := v.spriteBit 0x1D n
  let left := v.spriteX n
  if left ≤ x + 24 ∧ x + 24 < left + if wide then 48 else 24 then some ((x + 24 - left) / if wide then 2 else 1) else none

/-- The 24 bits of a sprite row (R671), the first byte in bits 23..16. -/
def spriteData (s : State) (n row : Nat) : BitVec 24 :=
  let base := (videoRead s (s.vic.screenBase + 0x3F8 + n)).toNat * 64 + row * 3
  videoRead s base ++ videoRead s (base + 1) ++ videoRead s (base + 2)

/-- The colour of column `q` of a sprite row, or none where it is transparent (R672). -/
def spriteColour (v : Vic) (n : Nat) (data : BitVec 24) (q : Nat) : Option Colour :=
  if v.spriteBit 0x1C n then
    match (data.getLsbD (23 - q / 2 * 2), data.getLsbD (22 - q / 2 * 2)) with
    | (false, false) => none
    | (false, true) => some (v.colour 0x25)
    | (true, false) => some (v.colour (0x27 + n))
    | (true, true) => some (v.colour 0x26)
  else if data.getLsbD (23 - q) then some (v.colour (0x27 + n))
  else none

/-- The non-transparent pixel of sprite `n` on raster line `r` at frame column `x`, if there is one (R670 to R673). -/
def spritePixel (s : State) (n r x : Nat) : Option Colour :=
  match spriteRow s.vic n r, spriteColumn s.vic n x with
  | some row, some q => spriteColour s.vic n (spriteData s n row) q
  | _, _ => none

/-- One sprite painted over a pixel (R674): behind foreground graphics when its priority bit is set. -/
def paintSprite (s : State) (r x n : Nat) (fg : Bool) (below : Colour) : Colour :=
  match spritePixel s n r x with
  | some c => if s.vic.spriteBit 0x1B n && fg then below else c
  | none => below

/-- The pixel under the border (R663, R675): the graphics, then the sprites from 7 down to 0. -/
def layeredPixel (s : State) (r x : Nat) : Colour :=
  let g := graphicsPixel s r x
  [7, 6, 5, 4, 3, 2, 1, 0].foldl (fun below n => paintSprite s r x n g.fg below) g.colour

/-- The border covers this pixel of a displayed line (R652, R653). -/
def Vic.inBorder (v : Vic) (r x : Nat) : Bool :=
  (!v.rsel && (decide (r < 0x37) || decide (0xF7 ≤ r))) || (!v.csel && (decide (x < 7) || decide (311 ≤ x)))

/-- The pixel shown on raster line `r` at frame column `x` (R650, R662, R663). -/
def shownPixel (s : State) (r x : Nat) : Colour :=
  if !s.vic.den || s.vic.inBorder r x then s.vic.colour 0x20 else layeredPixel s r x

/-- The sprites with a non-transparent pixel on raster line `r` at column `x`, as a mask (R676). -/
def spriteMask (s : State) (r x : Nat) : Byte :=
  [0, 1, 2, 3, 4, 5, 6, 7].foldl
    (fun m n => if (spritePixel s n r x).isSome then m ||| (1#8 <<< n) else m) 0#8

/-- A mask with two or more bits set. -/
def twoOrMore (m : Byte) : Bool := (m &&& (m - 1#8)) != 0#8

/-- `ssLine` and `sdLine` of raster line `r` (R676): the sprites overlapping another sprite, and those over foreground. -/
def lineCollisions (s : State) (r : Nat) : Byte × Byte :=
  (List.range 320).foldl
    (fun acc x =>
      let m := spriteMask s r x
      (if twoOrMore m then acc.1 ||| m else acc.1, if (graphicsPixel s r x).fg then acc.2 ||| m else acc.2))
    (0#8, 0#8)

/-- The chip after the collisions of a line (R676, R677): the registers accumulate, and a latch bit is set only when its source
is enabled. -/
def Vic.collide (v : Vic) (ss sd : Byte) : Vic :=
  let l := if ss != 0#8 && v.enable.getLsbD 2 then v.latch ||| 4#4 else v.latch
  let l := if sd != 0#8 && v.enable.getLsbD 1 then l ||| 2#4 else l
  { v with collSS := v.collSS ||| ss, collSD := v.collSD ||| sd, latch := l }

/-- Raster line `r` is one of the 200 frame rows (R633, R651). -/
def inFrame (r : Nat) : Bool := decide (0x33 ≤ r) && decide (r ≤ 0xFA)

/-- `drawRasterline()` (R650): the border entry of every line, and on a frame row the row's pixels and, with the display enabled,
its collisions. -/
def drawRasterline (s : State) : State :=
  let r := s.vic.raster.toNat
  let v := { s.vic with border := putAt r (s.vic.colour 0x20) s.vic.border }
  if inFrame r then
    let v := { v with frame := putAt (r - 0x33) ((List.range 320).map (shownPixel s r)) v.frame }
    if s.vic.den then
      let c := lineCollisions s r
      { s with vic := v.collide c.1 c.2 }
    else { s with vic := v }
  else { s with vic := v }

/-- The pixel of the frame buffer at row `y`, column `x` (R54): what was drawn there, else a draw (I12).
DESIGN CHOICE: an undrawn pixel is the same free value after every reset (notes/assumptions/17.md). -/
def Vic.framePixel (v : Vic) (y x : Nat) : Colour :=
  match lookAt y v.frame with
  | some row => row.getD x 0
  | none => Config.freePixel y x

/-- The border entry of raster line `r` (R54): what was drawn there, else a draw (I12).
DESIGN CHOICE: an undrawn entry is the same free value after every reset (notes/assumptions/17.md). -/
def Vic.borderAt (v : Vic) (r : Nat) : Colour := (lookAt r v.border).getD (Config.freeBorder r)

end Sys2Proof.Machine
end

