-- ==== Sys2Proof/Machine/Sound.lean ====
section
/-! DEFINITION. The sound engine (63_sound_engine R700 to R750): one voice's cycle, hard sync, the waveforms, the filter's place,
the mix, the ring buffer, and a raster line of sound. -/

namespace Sys2Proof.Machine

/-- What a voice reads of its seven registers (R704). -/
structure VoiceRegs where
  freq : BitVec 16
  pw : BitVec 12
  control : Byte
  ad : Byte
  sr : Byte
  deriving DecidableEq, Repr

/-- The registers of voice `v` of a chip, at base `7v` (R704). -/
def SidChip.voiceRegs (c : SidChip) (v : Nat) : VoiceRegs :=
  let r (i : Nat) : Byte := c.regs.read (7 * v + i)
  { freq := wordOf (r 0) (r 1)
    pw := (r 3).extractLsb' 0 4 ++ r 2
    control := r 4
    ad := r 5
    sr := r 6 }

/-- `GATE`, `SYNC`, `RING`, `TEST` of CONTROL (R704). -/
def VoiceRegs.gate (r : VoiceRegs) : Bool := r.control.getLsbD 0
def VoiceRegs.sync (r : VoiceRegs) : Bool := r.control.getLsbD 1
def VoiceRegs.ring (r : VoiceRegs) : Bool := r.control.getLsbD 2
def VoiceRegs.test (r : VoiceRegs) : Bool := r.control.getLsbD 3

/-- The rate nibble of an envelope state (R718). -/
def VoiceRegs.rate (r : VoiceRegs) : Adsr → BitVec 4
  | .attack => r.ad.extractLsb' 4 4
  | .decaySustain => r.ad.extractLsb' 0 4
  | .release => r.sr.extractLsb' 0 4

/-- `RATE_PERIOD[n]` (R718). -/
def ratePeriod (n : BitVec 4) : BitVec 15 :=
  match n.toNat with
  | 0 => 9
  | 1 => 32
  | 2 => 63
  | 3 => 95
  | 4 => 149
  | 5 => 220
  | 6 => 267
  | 7 => 313
  | 8 => 392
  | 9 => 977
  | 10 => 1954
  | 11 => 3126
  | 12 => 3907
  | 13 => 11720
  | 14 => 19532
  | _ => 31251

/-- The value of an exponential period (R56, R719). -/
def ExpPeriod.value : ExpPeriod → BitVec 5
  | .p1 => 1
  | .p2 => 2
  | .p4 => 4
  | .p8 => 8
  | .p16 => 16
  | .p30 => 30

/-- The exponential period after a step to `env` (R719); other values leave it. -/
def ExpPeriod.after (p : ExpPeriod) (env : Byte) : ExpPeriod :=
  match env.toNat with
  | 0xFF => .p1
  | 0x5D => .p2
  | 0x36 => .p4
  | 0x1A => .p8
  | 0x0E => .p16
  | 0x06 => .p30
  | 0x00 => .p1
  | _ => p

/-- A gate edge (R717, R721): the envelope goes to `target`, and the attack-delay bug skips one count when the new rate nibble is
greater than the old. -/
def Voice.edge (v : Voice) (r : VoiceRegs) (target : Adsr) : Voice :=
  { v with adsr := target, skipOne := v.skipOne || decide ((r.rate v.adsr).toNat < (r.rate target).toNat) }

/-- The gate edge test of one cycle (R717). -/
def Voice.gateTest (v : Voice) (r : VoiceRegs) : Voice :=
  let w :=
    if r.gate && !v.prevGate then { v.edge r .attack with holdZero := false }
    else if !r.gate && v.prevGate then v.edge r .release
    else v
  { w with prevGate := r.gate }

/-- The envelope counter one up, clamped (R711). -/
def envUp (e : Byte) : Byte := if e = 0xFF#8 then e else e + 1#8

/-- The envelope counter one down, clamped (R711). -/
def envDown (e : Byte) : Byte := if e = 0x00#8 then e else e - 1#8

/-- The sustain level (R719). -/
def VoiceRegs.sustain (r : VoiceRegs) : Byte := r.sr.extractLsb' 4 4 ++ r.sr.extractLsb' 4 4

/-- The envelope step (R711, R719): nothing while `holdZero`; after it the exponential period follows `env`, and at 0 the hold
latch sets. -/
def Voice.envStep (v : Voice) (r : VoiceRegs) : Voice :=
  if v.holdZero then v
  else
    let env :=
      match v.adsr with
      | .attack => envUp v.env
      | .decaySustain => if v.env = r.sustain then v.env else envDown v.env
      | .release => envDown v.env
    { v with
      env := env
      adsr := if v.adsr = .attack ∧ env = 0xFF#8 then .decaySustain else v.adsr
      expPeriod := v.expPeriod.after env
      holdZero := env == 0x00#8 }

/-- A rate tick (R719): in Attack the step happens at once, else when the exponential counter reaches its period. -/
def Voice.rateTick (v : Voice) (r : VoiceRegs) : Voice :=
  if v.adsr = .attack then v.envStep r
  else if v.expCounter + 1 = v.expPeriod.value then Voice.envStep { v with expCounter := 0 } r
  else { v with expCounter := v.expCounter + 1 }

/-- The envelope's cycle (R718): a skipped count, or a count that ticks when it equals the period. -/
def Voice.envelope (v : Voice) (r : VoiceRegs) : Voice :=
  if v.skipOne then { v with skipOne := false }
  else if v.rateCounter + 1 = ratePeriod (r.rate v.adsr) then Voice.rateTick { v with rateCounter := 0 } r
  else { v with rateCounter := v.rateCounter + 1 }

/-- The oscillator's cycle (R712). -/
def Voice.oscillate (v : Voice) (r : VoiceRegs) : Voice :=
  { v with acc := if r.test then 0 else v.acc + r.freq.setWidth 24 }

/-- The noise register's cycle (R714): it shifts when bit 19 of the accumulator rises. -/
def Voice.noiseShift (v : Voice) : Voice :=
  let rise := v.acc.getLsbD 19 && !v.prevBit19
  let bit := BitVec.ofBool (v.lfsr.getLsbD 22 != v.lfsr.getLsbD 17)
  { v with
    lfsr := if rise then (v.lfsr <<< 1) ||| bit.setWidth 23 else v.lfsr
    prevBit19 := v.acc.getLsbD 19 }

/-- `clockVoice` (R710): gate, envelope, oscillator, noise. -/
def Voice.clock (v : Voice) (r : VoiceRegs) : Voice :=
  (((v.gateTest r).envelope r).oscillate r).noiseShift

/-- The top bit of a voice's accumulator rose this cycle (R713). -/
def Voice.msbRose (v : Voice) : Bool := v.acc.getLsbD 23 && !v.prevMsb

/-- Hard sync of one voice (R713): its accumulator is cleared when its source's top bit rose; then its own top bit is kept. -/
def Voice.syncWith (v : Voice) (r : VoiceRegs) (source : Voice) : Voice :=
  let acc := if r.sync && source.msbRose then 0 else v.acc
  { v with acc := acc, prevMsb := acc.getLsbD 23 }

/-- `syncPass(k)` (R713): the sources of voices 0, 1, 2 are voices 2, 0, 1, taken as they stood before the pass. -/
def SidChip.syncPass (c : SidChip) : SidChip :=
  { c with
    voice0 := c.voice0.syncWith (c.voiceRegs 0) c.voice2
    voice1 := c.voice1.syncWith (c.voiceRegs 1) c.voice0
    voice2 := c.voice2.syncWith (c.voiceRegs 2) c.voice1 }

/-- One chip cycle of an instance (R720). -/
def SidChip.clock (c : SidChip) : SidChip :=
  SidChip.syncPass
    { c with
      voice0 := c.voice0.clock (c.voiceRegs 0)
      voice1 := c.voice1.clock (c.voiceRegs 1)
      voice2 := c.voice2.clock (c.voiceRegs 2) }

/-- The noise output (R714): eight bits of the register over four zero bits. -/
def Voice.noise (v : Voice) : BitVec 12 :=
  let b (i : Nat) : BitVec 1 := BitVec.ofBool (v.lfsr.getLsbD i)
  b 20 ++ b 18 ++ b 14 ++ b 11 ++ b 9 ++ b 5 ++ b 2 ++ b 0 ++ 0#4

/-- The sawtooth (R715). -/
def sawtooth (acc : BitVec 24) : BitVec 12 := acc.extractLsb' 12 12

/-- The triangle (R715): `invert` is the accumulator's top bit, exclusive-ored with the source's under ring modulation. -/
def triangle (acc : BitVec 24) (invert : Bool) : BitVec 12 :=
  (if invert then ~~~acc else acc).extractLsb' 11 12

/-- The pulse's hard comparison (R715). -/
def hardPulse (acc : BitVec 24) (pw : BitVec 12) (test : Bool) : BitVec 12 :=
  if test || decide (pw.toNat ≤ (sawtooth acc).toNat) then 0xFFF#12 else 0x000#12

/-- The pulse, softened by the OPEN function (R715). -/
def pulse (r : VoiceRegs) (acc : BitVec 24) : BitVec 12 :=
  Config.pulseSoften r.freq acc r.pw (hardPulse acc r.pw r.test)

/-- Waveform selection by CONTROL[7:4] (R716); `source` is the ring-modulation source's accumulator. -/
def Voice.wave (model : SidModel) (v : Voice) (r : VoiceRegs) (source : BitVec 24) : BitVec 12 :=
  match (r.control.extractLsb' 4 4).toNat with
  | 0 => 0#12
  | 1 => triangle v.acc (v.acc.getLsbD 23 != (r.ring && source.getLsbD 23))
  | 2 => sawtooth v.acc
  | 4 => pulse r v.acc
  | 8 => v.noise
  | _ => Config.combinedWave model (r.control.extractLsb' 4 4) v.acc v.prevWave

/-- `vout` (R730): the wave centred on 0, times the envelope. -/
def voiceOut (wave : BitVec 12) (env : Byte) : Int := ((wave.toNat : Int) - 0x800) * (env.toNat : Int)

/-- One instance's sample (R730, R740 to R742): the chip with its filter stepped and its waves kept, and its output. -/
def SidChip.sample (model : SidModel) (c : SidChip) : SidChip × Int :=
  let w0 := c.voice0.wave model (c.voiceRegs 0) c.voice2.acc
  let w1 := c.voice1.wave model (c.voiceRegs 1) c.voice0.acc
  let w2 := c.voice2.wave model (c.voiceRegs 2) c.voice1.acc
  let o0 := voiceOut w0 c.voice0.env
  let o1 := voiceOut w1 c.voice1.env
  let o2 := voiceOut w2 c.voice2.env
  let route := c.regs.read 0x17
  let mode := c.regs.read 0x18
  let pick (b : Bool) (o : Int) : Int := if b then o else 0
  let vi := pick (route.getLsbD 0) o0 + pick (route.getLsbD 1) o1 + pick (route.getLsbD 2) o2
  let dry :=
    pick (!route.getLsbD 0) o0 + pick (!route.getLsbD 1) o1 + pick (!route.getLsbD 2 && !mode.getLsbD 7) o2
  let f := Config.filterStep model (c.regs.read 0x16 ++ (c.regs.read 0x15).extractLsb' 0 3) (route.extractLsb' 4 4) vi c.lp c.bp
  let sum := dry + pick (mode.getLsbD 4) f.1 + pick (mode.getLsbD 5) f.2.1 + pick (mode.getLsbD 6) f.2.2
  ({ c with
      voice0 := { c.voice0 with prevWave := w0 }
      voice1 := { c.voice1 with prevWave := w1 }
      voice2 := { c.voice2 with prevWave := w2 }
      lp := f.1
      bp := f.2.1 },
    Config.pcmScale (((sum * (mode.extractLsb' 0 4).toNat : Int) : Rat) / 15))

/-- `mixSample()` (R743): every instance's sample, and the frame they make. -/
def Sid.mixSample (d : Sid) : Sid × List Int :=
  let r0 := d.chip0.sample (Config.sidModel 0)
  let r1 := d.chip1.sample (Config.sidModel 1)
  let r2 := d.chip2.sample (Config.sidModel 2)
  ({ d with chip0 := r0.1, chip1 := r1.1, chip2 := r2.1 }, Config.mixInstances r0.2 r1.2 r2.2)

/-- `appendRing(s)` (R745): the frame is appended; a full ring is handed over whole and becomes empty. -/
def Sid.appendRing (d : Sid) (frame : List Int) (size : Nat) : Sid × Option (List (List Int)) :=
  let ring := d.ring ++ [frame]
  if size ≤ ring.length then ({ d with ring := [] }, some ring) else ({ d with ring := ring }, none)

/-- The sample accumulator's step (R720): its new value, and whether a sample is due. -/
def sampleStep (acc rate hz : Nat) : Nat × Bool := if hz ≤ acc + rate then (acc + rate - hz, true) else (acc + rate, false)

/-- One of a line's cycles (R720), with the blocks handed to the audio sink so far. -/
def Sid.cycle (d : Sid) (cpuHz : Nat) : Sid × Option (List (List Int)) :=
  let t := sampleStep d.sampleAcc Config.sampleRate cpuHz
  let d := { d with chip0 := d.chip0.clock, chip1 := d.chip1.clock, chip2 := d.chip2.clock, sampleAcc := t.1 }
  if t.2 then
    let m := d.mixSample
    m.1.appendRing m.2 Config.ringSamples
  else (d, none)

/-- `n` cycles of the engine: the engine after them and the blocks handed over, oldest first (R720, R745). -/
def Sid.run (cpuHz : Nat) : Nat → Sid → Sid × List (List (List Int))
  | 0, d => (d, [])
  | n + 1, d =>
    let c := d.cycle cpuHz
    let r := Sid.run cpuHz n c.1
    (r.1, c.2.toList ++ r.2)

/-- `soundLine()` (R720): `LINE_CYCLES` cycles of the engine. -/
def soundLine (s : State) : State := { s with sid := (Sid.run s.cfg.cpuHz s.cfg.lineCycles s.sid).1 }

end Sys2Proof.Machine
end

