-- ==== Sys2Proof/Machine/Loop.lean ====
section
/-! DEFINITION. Fetching (30_encoding R163), the CPU step (60_exceptions R420), the line loop (R440 to R442), host turns (R461)
and an injected subroutine (R462), and what the core hands to the host (R465 to R467). `Step.lean` only calls these. -/

namespace Sys2Proof.Machine

/-- The fetch of the instruction at PC (R163): the opcode, then as many operand bytes as are read, in ascending order, each a bus
read. PC is not advanced here: that is the first act of every meaning. -/
def fetch (s : State) : Instr × State :=
  let op := busRead s.pc s
  match operandCount op.1 with
  | 0 => (decodeBytes op.1 0 0, op.2)
  | 1 =>
    let b1 := busRead (s.pc + 1#16) op.2
    (decodeBytes op.1 b1.1 0, b1.2)
  | _ =>
    let b1 := busRead (s.pc + 1#16) op.2
    let b2 := busRead (s.pc + 2#16) b1.2
    (decodeBytes op.1 b1.1 b2.1, b2.2)

/-- One instruction fetched and executed. -/
def runInstruction (s : State) : Result := exec (fetch s).1 (fetch s).2

/-- `cpuStep()` on a core that is not halted (R420, R425): an NMI, else an IRQ, else one instruction. -/
def cpuStep (s : State) : Result :=
  if s.nmiLine && s.nmiAck then .next (enterNMI s)
  else if s.irqLine && !s.p.i then .next (enterIRQ s)
  else runInstruction s

/-- The start of a raster line (R440): `nextRasterline`, the budget, the line's cycle count cleared. -/
def startLine (s : State) : State :=
  let v := s.vic.nextLine
  let stolen := v.stolen s.cfg.badlineCycles
  let budget := s.cfg.lineCycles - stolen
  { s with vic := v, lineCycles := 0, phase := if stolen = 0 then .firstBatch budget else .lastBatch budget }

/-- One action of the core, by its place in the line loop (R440). -/
def coreStep (s : State) : Result :=
  match s.phase with
  | .lineStart => .next (startLine s)
  | .firstBatch budget =>
    if s.lineCycles < s.cfg.ciaSplit then cpuStep s else .next { ciaCheck s with phase := .lastBatch budget }
  | .lastBatch budget =>
    if s.lineCycles < budget then cpuStep s else .next { ciaCheck s with phase := .draw }
  | .draw => .next { drawRasterline s with phase := .sound }
  | .sound => .next { soundLine s with phase := .lineStart }

/-- One instruction of an injected subroutine (R462): no interrupt is polled and no cycle is charged; an RTS that leaves SP at
the saved value ends the call, and every register is restored. -/
def injectedStep (saved : Saved) (s : State) : Result :=
  let f := fetch s
  match exec f.1 f.2 with
  | .next t =>
    let t := { t with lineCycles := s.lineCycles, sinceCheck := s.sinceCheck }
    if f.1 = .rts ∧ t.sp = saved.sp then .next (t.restore saved) else .next t
  | .fault r => .fault r
  | .refused r => .refused r

/-- A host turn (R461): the act, or no change when it is refused. -/
def hostStep (act : HostAct) (s : State) : State :=
  match hostAct act s with
  | .ok t => t
  | .error _ => s

/-- A step of a halted core (R410, R411): the fault, unless the host resets it and `RESET_ON_HALT` allows that. -/
def haltedStep (s : State) : Result :=
  match s.hostPlan with
  | .host .reset :: rest =>
    if s.cfg.resetOnHalt then .next (hostStep .reset { s with hostPlan := rest })
    else .fault (.illegalOpcode s.haltOp s.haltPC)
  | _ => .fault (.illegalOpcode s.haltOp s.haltPC)

/-- A step at a boundary: who moves is the head of the host's plan; an empty plan leaves every move to the core. Every place
between two actions of the core is a boundary, those between a line's last check, its drawing and its sound too: it lies between
two CPU steps and inside none of the actions that R461 lists. -/
def boundaryStep (s : State) : Result :=
  match s.hostPlan with
  | [] => coreStep s
  | .core :: rest => coreStep { s with hostPlan := rest }
  | .host act :: rest => .next (hostStep act { s with hostPlan := rest })

/-- One step of the whole machine (R8, R410, R440, R461, R462). -/
def machineStep (s : State) : Result :=
  if s.halted then haltedStep s
  else
    match s.inject with
    | some saved => injectedStep saved s
    | none => boundaryStep s

/-- What the core hands to the host in the step from a state. -/
inductive Delivery where
  /-- HT7 (R466, R634): the frame rows and border entries drawn so far, at the raster's wrap. -/
  | frame (rows : List (Nat × List Colour)) (border : List (Nat × Colour))
  /-- HT8 (R467, R745): one block of frames. -/
  | audio (block : List (List Int))
  /-- HT6 (R465): a program image. -/
  | image (bytes : List Byte)
  deriving DecidableEq, Repr

/-- What an action of the core hands over. -/
def coreDeliveries (s : State) : List Delivery :=
  match s.phase with
  | .lineStart =>
    if nextRaster s.vic.raster = 0#9 then [.frame s.vic.frame s.vic.border] else []
  | .sound => (Sid.run s.cfg.cpuHz s.cfg.lineCycles s.sid).2.map .audio
  | _ => []

/-- What the step from a state hands to the host (R465 to R467): it changes no state, so it is a function of the state
(notes/assumptions/12.md). -/
def deliveries (s : State) : List Delivery :=
  if s.halted || s.inject.isSome then []
  else
    match s.hostPlan with
    | .host .saveImage :: _ => [.image (saveImage s)]
    | .host _ :: _ => []
    | _ => coreDeliveries s

/-- The CPU reads RAM at an address, whatever it holds there. -/
def readsRam (s : State) (a : Word) : Bool := readRoute s.visible a == .ram

/-- Where the three bytes of a test instruction are placed: at PC when the CPU fetches RAM there, else at 0xC000, which is RAM in
every bank mode of the standard table (R125; notes/assumptions/14.md). -/
def fetchSite (s : State) : Word :=
  if readsRam s s.pc && readsRam s (s.pc + 1#16) && readsRam s (s.pc + 2#16) then s.pc else 0xC000#16

/-- A place in the line loop from which the very next action is a CPU step: the present one if it is such, else the line's last
batch with one cycle left. -/
def runnablePhase (s : State) : Phase :=
  match s.phase with
  | .firstBatch b => if s.lineCycles < s.cfg.ciaSplit then .firstBatch b else .lastBatch (s.lineCycles + 1)
  | .lastBatch b => if s.lineCycles < b then .lastBatch b else .lastBatch (s.lineCycles + 1)
  | _ => .lastBatch (s.lineCycles + 1)

/-- A state whose very next step fetches and executes the instruction whose bytes are given (notes/assumptions/14.md): the bytes
are placed as a program-image load does (R464) and PC set as `setPC` does (R463), the core is not halted, no injected
subroutine runs, the host makes no move, no interrupt is taken first, and the line loop stands at a CPU step. -/
def placeInstruction (bytes : List Byte) (s : State) : State :=
  let t := storeBytes (fetchSite s) bytes s
  { t with
    pc := fetchSite s
    halted := false
    inject := none
    hostPlan := []
    phase := runnablePhase s
    nmiAck := s.nmiAck && !s.nmiLine
    p := { s.p with i := s.p.i || s.irqLine } }

end Sys2Proof.Machine
end

