-- ==== Sys2Proof/Machine/Step.lean ====
section
/-! DEFINITION. The step function of the machine, and the placing of one instruction where it fetches next. -/

namespace Sys2Proof.Machine

/-- One step: one action of the core (a CPU step, a start of line, a timer check, a line drawn, a line of sound), or one host
act (R8, R440, R461). -/
def step (s : State) : Host.Outcome State Fault Refusal := machineStep s

/-- The state with the instruction of bits `w` placed where the very next step fetches and runs it. -/
def State.withFetchWord (s : State) (nbits w : Nat) : State := placeInstruction (tableBytes nbits w) s

end Sys2Proof.Machine
end

