-- ==== Sys2Proof/Safety.lean ====
section
/-! DEFINITION. The terms claims use. First the invariants of the state (10_state R50 to R56, 61_timer_controller R503, R504,
R524, R530, 62_video_chip R616, R623, R630, 63_sound_engine R711, R745). Then the frames: what an instruction, a bus read or a
bus write leaves as it was. -/

namespace Sys2Proof.Machine

/-- Every memory and register array is in canonical form, its indexes within its size (R50, R53, R54, R56). -/
structure MemoryInv (s : State) : Prop where
  ramWf : s.ram.wf
  ramSize : s.ram.within 0x10000
  colorWf : s.color.wf
  colorSize : s.color.within 1024
  vicWf : s.vic.regs.wf
  vicSize : s.vic.regs.within 64
  sid0Wf : s.sid.chip0.regs.wf
  sid0Size : s.sid.chip0.regs.within 32
  sid1Wf : s.sid.chip1.regs.wf
  sid1Size : s.sid.chip1.regs.within 32
  sid2Wf : s.sid.chip2.regs.wf
  sid2Size : s.sid.chip2.regs.within 32

/-- The video chip's invariant: the raster counter is 0..311 (R54, R630), the light-pen latch bit is never set (R616), the compare
value is what registers 0x11 and 0x12 hold (R54, R623), and the output arrays have the sizes of R54. -/
structure VicInv (v : Vic) : Prop where
  raster : v.raster.toNat < 312
  lightPen : v.latch.getLsbD 3 = false
  compareHigh : v.compare.getLsbD 8 = (v.reg 0x11).getLsbD 7
  compareLow : v.compare.extractLsb' 0 8 = v.reg 0x12
  frameRows : ∀ row ∈ v.frame, row.1 < 200 ∧ row.2.length = 320
  borderEntries : ∀ entry ∈ v.border, entry.1 < 312

/-- A time of day keeps to its fields' bits (R504): tenths 3..0, seconds and minutes 6..0, hours 7 and 4..0. -/
structure TodInv (t : Tod) : Prop where
  tenths : t.t10 &&& 0xF0#8 = 0
  seconds : t.sec &&& 0x80#8 = 0
  minutes : t.min &&& 0x80#8 = 0
  hours : t.hr &&& 0x60#8 = 0

/-- A timer controller's invariant: the FLAG latch bit is never set (R503, R530), the force-load strobes are never stored (R524),
the composite is what latch and mask give (R530), and every time of day keeps to its fields' bits (R504). -/
structure CiaInv (c : Cia) : Prop where
  flagPin : c.icrLatch.getLsbD 4 = false
  strobeA : c.cra.getLsbD 4 = false
  strobeB : c.crb.getLsbD 4 = false
  composite : c.icrFlag = ((c.icrLatch &&& c.icrMask) != 0#5)
  time : TodInv c.tod
  alarm : TodInv c.alarm
  snapshot : TodInv c.todSnap

/-- A voice's invariant: the hold latch is set only at envelope 0 (R711), and the noise register never becomes 0 (R714). -/
structure VoiceInv (v : Voice) : Prop where
  hold : v.holdZero = true → v.env = 0
  noise : v.lfsr ≠ 0

/-- A sound chip's invariant: that of its three voices. -/
structure ChipInv (c : SidChip) : Prop where
  voice0 : VoiceInv c.voice0
  voice1 : VoiceInv c.voice1
  voice2 : VoiceInv c.voice2

/-- The sound engine's invariant: its voices', and a ring that a full block has left (R745; notes/assumptions/20.md). -/
structure SidInv (d : Sid) : Prop where
  chip0 : ChipInv d.chip0
  chip1 : ChipInv d.chip1
  chip2 : ChipInv d.chip2
  ring : d.ring.length < max 1 Config.ringSamples

/-- What no admitted instruction changes: the halt record, the place in the line loop, the host's plan and the parameters. -/
structure SameRun (s t : State) : Prop where
  halted : t.halted = s.halted
  haltPC : t.haltPC = s.haltPC
  haltOp : t.haltOp = s.haltOp
  phase : t.phase = s.phase
  inject : t.inject = s.inject
  hostPlan : t.hostPlan = s.hostPlan
  cfg : t.cfg = s.cfg

/-- Every cell of memory reads as before: RAM, colour memory, the bank byte. -/
structure SameMemory (s t : State) : Prop where
  ram : ∀ a, t.ram.read a = s.ram.read a
  color : ∀ k, t.color.read k = s.color.read k
  bank : t.bankByte = s.bankByte

/-- Every device, the NMI acknowledge latch and the draws are as before. -/
structure SameDevices (s t : State) : Prop where
  vic : t.vic = s.vic
  cia1 : t.cia1 = s.cia1
  cia2 : t.cia2 = s.cia2
  sid : t.sid = s.sid
  nmiAck : t.nmiAck = s.nmiAck
  draws : t.draws = s.draws

/-- A, X, Y and SP are as before. -/
structure SameRegisters (s t : State) : Prop where
  a : t.a = s.a
  x : t.x = s.x
  y : t.y = s.y
  sp : t.sp = s.sp

/-- The frame of one bus write at `ea` (R112 to R118): every byte of RAM but the one at `ea` reads as before, every other cell of
colour memory, the bank byte unless `ea` is 0x0001, and each device unless `ea` lies in its window. -/
structure WrittenAt (ea : Word) (s t : State) : Prop where
  ram : ∀ a : Nat, a ≠ ea.toNat → t.ram.read a = s.ram.read a
  color : ∀ k : Nat, ea.toNat ≠ 0xD800 + k → t.color.read k = s.color.read k
  bank : ea ≠ 1#16 → t.bankByte = s.bankByte
  vic : ¬(0xD000 ≤ ea.toNat ∧ ea.toNat ≤ 0xD3FF) → t.vic = s.vic
  sid : ¬(0xD400 ≤ ea.toNat ∧ ea.toNat ≤ 0xD7FF) → t.sid = s.sid
  cia1 : ¬(0xDC00 ≤ ea.toNat ∧ ea.toNat ≤ 0xDCFF) → t.cia1 = s.cia1
  cia2 : ¬(0xDD00 ≤ ea.toNat ∧ ea.toNat ≤ 0xDDFF) → t.cia2 = s.cia2
  nmiAck : t.nmiAck = s.nmiAck
  draws : t.draws = s.draws

/-- An instruction ran to its end (R163, R164): `cost` cycles are charged, and nothing that no instruction changes has changed. -/
structure Ran (cost : Nat) (s t : State) : Prop where
  lineCycles : t.lineCycles = s.lineCycles + cost
  sinceCheck : t.sinceCheck = s.sinceCheck + cost
  run : SameRun s t

/-- The address of the next instruction (R163, R165). -/
def nextPC (i : Instr) (s : State) : Word := s.pc + BitVec.ofNat 16 i.length

/-- A row of the opcode table (R167): the opcode a mnemonic has in each form, and none in a form it lacks. -/
structure OpcodeRow where
  impl : Option Byte := none
  acc : Option Byte := none
  imm : Option Byte := none
  zp : Option Byte := none
  zpx : Option Byte := none
  zpy : Option Byte := none
  abs : Option Byte := none
  absx : Option Byte := none
  absy : Option Byte := none
  ind : Option Byte := none
  indx : Option Byte := none
  indy : Option Byte := none
  rel : Option Byte := none
  brk : Option Byte := none

/-- The opcode a row gives for a form. -/
def OpcodeRow.at (r : OpcodeRow) : Mode → Option Byte
  | .impl => r.impl
  | .acc => r.acc
  | .imm _ => r.imm
  | .zp _ => r.zp
  | .zpx _ => r.zpx
  | .zpy _ => r.zpy
  | .abs _ => r.abs
  | .absx _ => r.absx
  | .absy _ => r.absy
  | .ind _ => r.ind
  | .indx _ => r.indx
  | .indy _ => r.indy
  | .rel _ => r.rel
  | .brk => r.brk

/-- The mnemonic has exactly the forms and opcodes of a row, with every operand (R167, R169). -/
def HasForms (n : Mnemonic) (row : OpcodeRow) : Prop :=
  ∀ (m : Mode) (op : Byte), (∃ i : Instr, i.mnemonic = n ∧ i.mode = m ∧ i.opcode = op) ↔ row.at m = some op

/-- `v` is the status byte of `p` with break bit `b` (R43). -/
structure PackedAs (v : Byte) (p : Status) (b : Bool) : Prop where
  negative : v.getLsbD 7 = p.n
  overflow : v.getLsbD 6 = p.v
  unused : v.getLsbD 5 = true
  breakBit : v.getLsbD 4 = b
  decimal : v.getLsbD 3 = p.d
  interrupt : v.getLsbD 2 = p.i
  zero : v.getLsbD 1 = p.z
  carry : v.getLsbD 0 = p.c

/-- `p` is the status a pulled byte restores (R229, R303): every flag but the stored break flag. -/
structure RestoredFrom (p : Status) (v : Byte) : Prop where
  negative : p.n = v.getLsbD 7
  overflow : p.v = v.getLsbD 6
  decimal : p.d = v.getLsbD 3
  interrupt : p.i = v.getLsbD 2
  zero : p.z = v.getLsbD 1
  carry : p.c = v.getLsbD 0

/-- The status after `setNZ(v)` (R13). -/
def nzOf (p : Status) (v : Byte) : Status := { p with n := v.getLsbD 7, z := decide (v = 0#8) }

/-- The byte of page 0 at `z` (R110, R114): the bank byte at 0x0001, else RAM. -/
def zeroPageAt (s : State) (z : Byte) : Byte := if z = 1#8 then s.bankByte else s.ram.read z.toNat

/-- The stack byte at stack pointer `p` (R41). -/
def stackByte (s : State) (p : Byte) : Byte := s.ram.read (0x0100 + p.toNat)

/-- The word at 0xFFFE or 0xFFFA as an interrupt entry reads it (R110, R421): from the KERNAL image when it is visible, else from
RAM. -/
def vectorWord (s : State) (vector : Word) : Word :=
  let at_ (a : Nat) : Byte :=
    if s.visible.kernal then Memory.read (w := 8) s.cfg.kernalRom (a - 0xE000) else s.ram.read a
  wordOf (at_ vector.toNat) (at_ (vector.toNat + 1))

/-- What an interrupt entry leaves (R302, R421): `ret` and the status with break bit `b` on the stack, high byte first, SP three
lower, I set and every other flag as before, PC from the vector, and every other register, byte of RAM and device as before. -/
structure Entered (b : Bool) (vector ret : Word) (cost : Nat) (s t : State) : Prop where
  high : t.ram.read (stackAddr s.sp).toNat = hiByte ret
  low : t.ram.read (stackAddr (s.sp - 1#8)).toNat = loByte ret
  status : PackedAs (t.ram.read (stackAddr (s.sp - 2#8)).toNat) s.p b
  rest : ∀ k : Nat, k ≠ (stackAddr s.sp).toNat → k ≠ (stackAddr (s.sp - 1#8)).toNat → k ≠ (stackAddr (s.sp - 2#8)).toNat →
    t.ram.read k = s.ram.read k
  color : ∀ k, t.color.read k = s.color.read k
  bank : t.bankByte = s.bankByte
  sp : t.sp = s.sp - 3#8
  flags : t.p = { s.p with i := true }
  pc : t.pc = vectorWord s vector
  a : t.a = s.a
  x : t.x = s.x
  y : t.y = s.y
  ran : Ran cost s t
  vic : t.vic = s.vic
  cia1 : t.cia1 = s.cia1
  cia2 : t.cia2 = s.cia2
  sid : t.sid = s.sid
  draws : t.draws = s.draws

/-- The machine stands at a CPU step: not halted, no injected subroutine, the host makes no move, and the line loop's next action
is a CPU step (R420, R440). -/
structure AtCpuStep (s : State) : Prop where
  running : s.halted = false
  noCall : s.inject = none
  noHost : s.hostPlan = []
  place :
    (∃ budget, s.phase = .firstBatch budget ∧ s.lineCycles < s.cfg.ciaSplit) ∨
      (∃ budget, s.phase = .lastBatch budget ∧ s.lineCycles < budget)

/-- The line loop moves next, at a place of its own: not halted, no injected subroutine, the host makes no move (R440, R461). -/
structure AtCore (s : State) : Prop where
  running : s.halted = false
  noCall : s.inject = none
  noHost : s.hostPlan = []

/-- The CPU's whole state, its cycle counts, the halt record and the parameters are as before. -/
structure SameCpu (s t : State) : Prop where
  registers : SameRegisters s t
  pc : t.pc = s.pc
  p : t.p = s.p
  halted : t.halted = s.halted
  haltPC : t.haltPC = s.haltPC
  haltOp : t.haltOp = s.haltOp
  inject : t.inject = s.inject
  cfg : t.cfg = s.cfg

/-- Every field of a time of day is legal BCD for its radix (R504, R554): tenths 0 to 9, seconds and minutes 0 to 59, hours 1 to
12 with or without PM. -/
structure LegalTod (t : Tod) : Prop where
  tenths : t.t10.toNat ≤ 9
  seconds : t.sec.toNat / 16 ≤ 5 ∧ t.sec.toNat % 16 ≤ 9
  minutes : t.min.toNat / 16 ≤ 5 ∧ t.min.toNat % 16 ≤ 9
  hours : (1 ≤ t.hr.toNat % 128 ∧ t.hr.toNat % 128 ≤ 9) ∨ (0x10 ≤ t.hr.toNat % 128 ∧ t.hr.toNat % 128 ≤ 0x12)

/-- The value of a two-digit BCD byte. -/
def bcdValue (v : Byte) : Nat := v.toNat / 16 * 10 + v.toNat % 16

/-- A legal time of day as tenths of a second after midnight: 12 AM is hour 0, 12 PM hour 12. -/
def todTenths (t : Tod) : Nat :=
  let hour := bcdValue (t.hr &&& 0x1F#8) % 12 + if t.hr.getLsbD 7 then 12 else 0
  ((hour * 60 + bcdValue t.min) * 60 + bcdValue t.sec) * 10 + t.t10.toNat

end Sys2Proof.Machine
end

