-- ==== Sys2Proof/Certificates/Slice0/Obligations.lean ====
section
/-! DEFINITION. The statements about the machine, each formalising numbered rules of the spec: encoding, operand forms, every
instruction with its result and its frame, interrupts, the bus, the devices, the line loop, reset, the host, and the
invariants every step keeps. -/

open Sys2Proof Sys2Proof.Machine

/-! Encoding and fetch. -/

/-- The bytes of a well-formed instruction, with any bytes after them, decode to that instruction and those bytes (R160 to
R162). -/
def Obligations.DecodeOfEncodeIsTheInstruction : Prop :=
  ∀ (i : Instr) (rest : List Byte), i.wellFormed = true → decode (encode i ++ rest) = .ok (i, rest)

/-- The opcode byte alone gives the instruction (R160): the instruction decoded from an opcode byte has that opcode, and it is
illegal exactly for the 105 bytes of R168, the other 151 being admitted (R166). -/
def Obligations.OpcodeByteDeterminesInstruction : Prop :=
  (∀ op b1 b2 : Byte, (decodeBytes op b1 b2).opcode = op) ∧
  (∀ op b1 b2 : Byte, decodeBytes op b1 b2 = .illegal op ↔ op ∈ illegalOpcodes) ∧
  (∀ op b1 b2 : Byte, (decodeBytes op b1 b2).mnemonic = .illegal ↔ op ∈ illegalOpcodes) ∧
  (∀ op b1 b2 : Byte, (decodeBytes op b1 b2).wellFormed = true) ∧
  illegalOpcodes.length = 105 ∧ illegalOpcodes.Pairwise (fun p q => p.toNat < q.toNat)

/-- Some words written out from the spec's opcode map and formats (R161, R162, R166): a word of each family. -/
def Obligations.SampleWordsDecodeToTheirInstructions : Prop :=
  decodeTableWord 16 0x80A9 = some (.ldaImm 0x80#8) ∧
  decodeTableWord 24 0xC0008C = some (.styAbs 0xC000#16) ∧
  decodeTableWord 8 0xBA = some .tsx ∧
  decodeTableWord 16 0x1071 = some (.adcIndy 0x10#8) ∧
  decodeTableWord 24 0x12347E = some (.rorAbsx 0x1234#16) ∧
  decodeTableWord 24 0x10FF6C = some (.jmpInd 0x10FF#16) ∧
  decodeTableWord 16 0xFAD0 = some (.bne 0xFA#8) ∧
  decodeTableWord 8 0x78 = some .sei ∧
  decodeTableWord 8 0x80 = some (.illegal 0x80#8)

/-- A step runs the decoded instruction: at a CPU step at which no interrupt is taken, the step is `exec` of the fetched
instruction in the state the fetch leaves; and when the bytes at PC, read outside the I/O range, are those of a well-formed
instruction `i` (for BRK the opcode alone), it is `exec i` at that state (R163, R420). PC moves past the instruction inside
`exec`. The place of a CPU step in the line loop is the model's (notes/assumptions/8.md), and so is the host's plan
(notes/assumptions/9.md). -/
def Obligations.StepRunsTheDecodedInstruction : Prop :=
  (∀ s : State, AtCpuStep s → (s.nmiLine && s.nmiAck) = false → (s.irqLine && !s.p.i) = false →
    step s = exec (fetch s).1 (fetch s).2) ∧
  (∀ (s : State) (i : Instr), AtCpuStep s → (s.nmiLine && s.nmiAck) = false → (s.irqLine && !s.p.i) = false →
    i.wellFormed = true →
    (∀ k, k < (encode i).length → (i = .brk → k = 0) →
      readRoute s.visible (s.pc + BitVec.ofNat 16 k) ≠ .io ∧
      (busRead (s.pc + BitVec.ofNat 16 k) s).1 = (encode i).getD k 0) →
    step s = exec i s)

/-- The length of every form (R161) and, in the default cycle table, the base cost of every admitted instruction (R164, R167): the
spec's table said by form, with the read-modify-write instructions, the stores, the stack instructions and the jumps apart.
The reset state holds the parameters at their defaults (R9). -/
def Obligations.LengthsAndBaseCycles : Prop :=
  (∀ i : Instr, i.length =
    match i.mode with
    | .impl | .acc => 1
    | .abs _ | .absx _ | .absy _ | .ind _ => 3
    | _ => 2) ∧
  (∀ (i : Instr) (s : State), i.mnemonic ≠ .illegal → s.cfg.cycleTable = nmosCycles →
    let n := i.mnemonic
    let rmw := n ∈ [Mnemonic.asl, .lsr, .rol, .ror, .inc, .dec]
    s.cyclesOf i.opcode =
      match i.mode with
      | .impl => if n = .pha ∨ n = .php then 3 else if n = .pla ∨ n = .plp then 4 else if n = .rts ∨ n = .rti then 6 else 2
      | .acc | .imm _ | .rel _ => 2
      | .zp _ => if rmw then 5 else 3
      | .zpx _ => if rmw then 6 else 4
      | .zpy _ => 4
      | .abs _ => if n = .jmp then 3 else if n = .jsr ∨ rmw then 6 else 4
      | .absx _ => if rmw then 7 else if n = .sta then 5 else 4
      | .absy _ => if n = .sta then 5 else 4
      | .ind _ => 5
      | .indx _ => 6
      | .indy _ => if n = .sta then 6 else 5
      | .brk => 7) ∧
  (let c := State.reset.cfg
   c.cycleTable = nmosCycles ∧ c.bankTable = BankTable.standard ∧ c.sidMap = [] ∧ c.rmwDummyWrite = false ∧
   c.jmpIndPageWrap = true ∧ c.resetBankByte = 0x37#8 ∧ c.resetOnHalt = false ∧ c.lineCycles = 63 ∧ c.badlineCycles = 40 ∧
   c.ciaSplit = 31 ∧ c.cpuHz = 985248 ∧ c.saveStartPtr = 0x002B#16 ∧ c.saveEndPtr = 0x002D#16)

/-! Operand forms. -/

/-- The operand byte and the effective address of every form (R170 to R176, R179, R181): sums of page 0 wrap within it, indexed
sums wrap at 0x10000, both pointer bytes come from page 0, and a memory form reads the bus once, at the effective address. A
reading instruction adds one cycle exactly in `absx`, `absy` and `indy` when the effective address leaves the base's page
(R164, R176). -/
def Obligations.OperandFormsComputeTheirAddresses : Prop :=
  ∀ (s : State) (b : Byte) (w : Word),
    readOperand (.imm b) s = (b, s) ∧ readOperand .acc s = (s.a, s) ∧
    effectiveAddress (.zp b) s = zext16 b ∧
    (effectiveAddress (.zpx b) s).toNat = (b.toNat + s.x.toNat) % 256 ∧
    (effectiveAddress (.zpy b) s).toNat = (b.toNat + s.y.toNat) % 256 ∧
    effectiveAddress (.abs w) s = w ∧
    (effectiveAddress (.absx w) s).toNat = (w.toNat + s.x.toNat) % 65536 ∧
    (effectiveAddress (.absy w) s).toNat = (w.toNat + s.y.toNat) % 65536 ∧
    effectiveAddress (.indx b) s = wordOf (zeroPageAt s (b + s.x)) (zeroPageAt s (b + s.x + 1#8)) ∧
    (effectiveAddress (.indy b) s).toNat =
      ((wordOf (zeroPageAt s b) (zeroPageAt s (b + 1#8))).toNat + s.y.toNat) % 65536 ∧
    (∀ m ∈ [Mode.zp b, .zpx b, .zpy b, .abs w, .absx w, .absy w, .indx b, .indy b],
      readOperand m s = busRead (effectiveAddress m s) s) ∧
    readExtra (.absx w) s = (if (w.toNat + s.x.toNat) % 65536 / 256 = w.toNat / 256 then 0 else 1) ∧
    readExtra (.absy w) s = (if (w.toNat + s.y.toNat) % 65536 / 256 = w.toNat / 256 then 0 else 1) ∧
    (let base := (wordOf (zeroPageAt s b) (zeroPageAt s (b + 1#8))).toNat
     readExtra (.indy b) s = (if (base + s.y.toNat) % 65536 / 256 = base / 256 then 0 else 1)) ∧
    (∀ m ∈ [Mode.imm b, .acc, .zp b, .zpx b, .zpy b, .abs w, .indx b], readExtra m s = 0)

/-! Loads, stores, transfers and the stack. -/

/-- LDA, LDX and LDY in every form (R200 to R202): the register gets the operand, N and Z follow it, a page crossing costs one
cycle, and nothing else changes but what the one operand read changes in a device. -/
def Obligations.LoadsWriteTheRegisterAndNZ : Prop :=
  HasForms .lda
    { imm := some 0xA9#8, zp := some 0xA5#8, zpx := some 0xB5#8, abs := some 0xAD#8, absx := some 0xBD#8
      absy := some 0xB9#8, indx := some 0xA1#8, indy := some 0xB1#8 } ∧
  HasForms .ldx { imm := some 0xA2#8, zp := some 0xA6#8, zpy := some 0xB6#8, abs := some 0xAE#8, absy := some 0xBE#8 } ∧
  HasForms .ldy { imm := some 0xA0#8, zp := some 0xA4#8, zpx := some 0xB4#8, abs := some 0xAC#8, absx := some 0xBC#8 } ∧
  ∀ (i : Instr) (s : State), i.mnemonic ∈ [Mnemonic.lda, .ldx, .ldy] →
    let s0 := stepOver i.mode s
    let M := readOperand i.mode s0
    ∃ t, exec i s = .next t ∧ t.pc = nextPC i s ∧ t.p = nzOf s.p M.1 ∧
      t.a = (if i.mnemonic = .lda then M.1 else s.a) ∧ t.x = (if i.mnemonic = .ldx then M.1 else s.x) ∧
      t.y = (if i.mnemonic = .ldy then M.1 else s.y) ∧ t.sp = s.sp ∧
      Ran (s.cyclesOf i.opcode + readExtra i.mode s0) s t ∧ SameMemory s t ∧ SameDevices M.2 t

/-- STA, STX and STY in every form (R203 to R205): one bus write of the register at the effective address, with no read of it, no
flag written, and no page penalty; every byte of RAM but the one stored to reads as before. -/
def Obligations.StoresWriteOnceAndReadNothing : Prop :=
  HasForms .sta
    { zp := some 0x85#8, zpx := some 0x95#8, abs := some 0x8D#8, absx := some 0x9D#8, absy := some 0x99#8
      indx := some 0x81#8, indy := some 0x91#8 } ∧
  HasForms .stx { zp := some 0x86#8, zpy := some 0x96#8, abs := some 0x8E#8 } ∧
  HasForms .sty { zp := some 0x84#8, zpx := some 0x94#8, abs := some 0x8C#8 } ∧
  ∀ (i : Instr) (s : State), i.mnemonic ∈ [Mnemonic.sta, .stx, .sty] →
    let s0 := stepOver i.mode s
    let ea := effectiveAddress i.mode s0
    let v := if i.mnemonic = .sta then s.a else if i.mnemonic = .stx then s.x else s.y
    ∃ t, exec i s = .next t ∧ t.pc = nextPC i s ∧ t.p = s.p ∧ SameRegisters s t ∧ Ran (s.cyclesOf i.opcode) s t ∧
      SameMemory (busWrite ea v s) t ∧ SameDevices (busWrite ea v s) t ∧ WrittenAt ea s t ∧
      (writeRoute s.visible ea ≠ .io → t.ram.read ea.toNat = v) ∧ (ea = 0x0001#16 → t.bankByte = v)

/-- TAX, TAY, TXA, TYA and TSX copy a register and write N and Z; TXS copies X to SP and writes no flag (R220 to R225). Nothing
else changes. -/
def Obligations.TransfersCopyOneRegister : Prop :=
  HasForms .tax { impl := some 0xAA#8 } ∧ HasForms .tay { impl := some 0xA8#8 } ∧ HasForms .txa { impl := some 0x8A#8 } ∧
  HasForms .tya { impl := some 0x98#8 } ∧ HasForms .tsx { impl := some 0xBA#8 } ∧ HasForms .txs { impl := some 0x9A#8 } ∧
  ∀ (i : Instr) (s : State), i ∈ [Instr.tax, .tay, .txa, .tya, .tsx, .txs] →
    let v := if i = .tax ∨ i = .tay then s.a else if i = .tya then s.y else if i = .tsx then s.sp else s.x
    ∃ t, exec i s = .next t ∧ t.pc = nextPC i s ∧ t.p = (if i = .txs then s.p else nzOf s.p v) ∧
      t.a = (if i = .txa ∨ i = .tya then v else s.a) ∧ t.x = (if i = .tax ∨ i = .tsx then v else s.x) ∧
      t.y = (if i = .tay then v else s.y) ∧ t.sp = (if i = .txs then v else s.sp) ∧
      Ran (s.cyclesOf i.opcode) s t ∧ SameMemory s t ∧ SameDevices s t

/-- PHA and PHP (R226, R227, R43): the byte goes to 0x0100 | SP in RAM, whatever the bank mode, and SP steps down modulo 256; PHP's
byte is the status with bits 5 and 4 set. No flag and no other register changes. -/
def Obligations.PushesStoreInPageOne : Prop :=
  HasForms .pha { impl := some 0x48#8 } ∧ HasForms .php { impl := some 0x08#8 } ∧
  ∀ (i : Instr) (s : State), i = .pha ∨ i = .php →
    ∃ t, exec i s = .next t ∧ t.pc = nextPC i s ∧ t.p = s.p ∧ t.a = s.a ∧ t.x = s.x ∧ t.y = s.y ∧
      t.sp.toNat = (s.sp.toNat + 255) % 256 ∧ stackAddr s.sp = 0x0100#16 ||| zext16 s.sp ∧
      (i = .pha → t.ram.read (stackAddr s.sp).toNat = s.a) ∧
      (i = .php → PackedAs (t.ram.read (stackAddr s.sp).toNat) s.p true) ∧
      Ran (s.cyclesOf i.opcode) s t ∧ WrittenAt (stackAddr s.sp) s t ∧ SameDevices s t

/-- PLA and PLP (R228, R229): SP steps up modulo 256 and the byte comes from 0x0100 | SP in RAM; PLA writes A, N and Z, PLP
writes every flag but discards bits 5 and 4. Memory and the devices are as before; PLP takes one draw, for the stored break
flag. How PLP takes that draw is the model's (notes/assumptions/19.md). -/
def Obligations.PullsLoadFromPageOne : Prop :=
  HasForms .pla { impl := some 0x68#8 } ∧ HasForms .plp { impl := some 0x28#8 } ∧
  ∀ s : State,
    let v := s.ram.read (stackAddr (s.sp + 1#8)).toNat
    (∃ t, exec .pla s = .next t ∧ t.pc = nextPC .pla s ∧ t.a = v ∧ t.x = s.x ∧ t.y = s.y ∧ t.sp = s.sp + 1#8 ∧
      t.p = nzOf s.p v ∧ Ran (s.cyclesOf 0x68#8) s t ∧ SameMemory s t ∧ SameDevices s t) ∧
    (∃ t, exec .plp s = .next t ∧ t.pc = nextPC .plp s ∧ t.a = s.a ∧ t.x = s.x ∧ t.y = s.y ∧ t.sp = s.sp + 1#8 ∧
      RestoredFrom t.p v ∧ Ran (s.cyclesOf 0x28#8) s t ∧ SameMemory s t ∧
      SameDevices { s with draws := s.draws + 1 } t)

/-! Arithmetic, logic and shifts. -/

/-- The binary helpers (R240): the sum of 9 bits is split into result and carry, V is set exactly when the signed sum falls
outside -128..127, and `subBin` is the difference with C meaning no borrow. -/
def Obligations.BinaryAddAndSubtractAreExact : Prop :=
  ∀ (a b : Byte) (c : Bool),
    (let o := addBin a b c
     o.r.toNat + 256 * o.c.toNat = a.toNat + b.toNat + c.toNat ∧
     (o.v = true ↔ a.toInt + b.toInt + c.toNat < -128 ∨ 127 < a.toInt + b.toInt + c.toNat) ∧
     o.n = o.r.getLsbD 7 ∧ (o.z = true ↔ o.r = 0#8)) ∧
    (let o := subBin a b c
     o = addBin a (b ^^^ 0xFF#8) c ∧
     (o.r.toNat : Int) = a.toNat - b.toNat - (1 - c.toNat) + 256 * (1 - o.c.toNat) ∧
     (o.c = true ↔ (0 : Int) ≤ a.toNat - b.toNat - (1 - c.toNat)) ∧
     (o.v = true ↔ a.toInt - b.toInt - (1 - c.toNat) < -128 ∨ 127 < a.toInt - b.toInt - (1 - c.toNat)))

/-- The decimal helpers (R241, R242). On decimal digits `addDec` gives the decimal sum and its carry, and `subDec` the decimal
difference modulo 100. On all bytes, not decimal digits alone, both give what the rules' adjustments give: the result and C of
`addDec` from the adjusted sum S, its N and V from the signed sum T before the last adjustment, its Z from the binary sum; the
result of `subDec` from its own adjusted difference, and its flags those of `subBin`. -/
def Obligations.DecimalAddAndSubtractAreDecimal : Prop :=
  (∀ (a b : Byte) (c : Bool), bcdLegal a 0x99#8 = true → bcdLegal b 0x99#8 = true →
    let n (v : Byte) : Nat := v.toNat / 16 * 10 + v.toNat % 16
    (let o := addDec a b c
     bcdLegal o.r 0x99#8 = true ∧ n o.r + 100 * o.c.toNat = n a + n b + c.toNat) ∧
    (let o := subDec a b c
     bcdLegal o.r 0x99#8 = true ∧ (n o.r : Int) = n a - n b - (1 - c.toNat) + 100 * (1 - o.c.toNat))) ∧
  (∀ (a b : Byte) (c : Bool),
    let o := subDec a b c
    let q := subBin a b c
    o.n = q.n ∧ o.v = q.v ∧ o.z = q.z ∧ o.c = q.c) ∧
  (∀ (a b : Byte) (c : Bool),
    let o := addDec a b c
    let low := a.toNat % 16 + b.toNat % 16 + c.toNat
    let al := if 0x0A ≤ low then (low + 0x06) % 16 + 0x10 else low
    let sum := a.toNat / 16 * 16 + b.toNat / 16 * 16 + al
    let adjusted := if 0xA0 ≤ sum then sum + 0x60 else sum
    let signed : Int := (a &&& 0xF0#8).toInt + (b &&& 0xF0#8).toInt + al
    o.r.toNat = adjusted % 256 ∧ (o.c = true ↔ 0x100 ≤ adjusted) ∧ (o.n = true ↔ 128 ≤ signed % 256) ∧
    (o.v = true ↔ signed < -128 ∨ 127 < signed) ∧ (o.z = true ↔ (a.toNat + b.toNat + c.toNat) % 256 = 0)) ∧
  (∀ (a b : Byte) (c : Bool),
    let low : Int := ((a.toNat % 16 : Nat) : Int) - (b.toNat % 16 : Nat) + c.toNat - 1
    let al := if low < 0 then (low - 0x06) % 16 - 0x10 else low
    let sum : Int := ((a.toNat / 16 * 16 : Nat) : Int) - (b.toNat / 16 * 16 : Nat) + al
    ((subDec a b c).r.toNat : Int) = (if sum < 0 then sum - 0x60 else sum) % 256) ∧
  addDec 0x58#8 0x46#8 false = { r := 0x04#8, n := true, v := true, z := false, c := true } ∧
  ((addDec 0x99#8 0x01#8 false).r = 0x00#8 ∧ (addDec 0x99#8 0x01#8 false).c = true ∧ (addDec 0x99#8 0x01#8 false).z = false) ∧
  ((subDec 0x46#8 0x12#8 true).r = 0x34#8 ∧ (subDec 0x46#8 0x12#8 true).c = true) ∧
  ((subDec 0x00#8 0x01#8 true).r = 0x99#8 ∧ (subDec 0x00#8 0x01#8 true).c = false ∧
    (subDec 0x00#8 0x01#8 true).n = true ∧ (subDec 0x00#8 0x01#8 true).z = false)

/-- ADC and SBC in every form (R243, R244): A and the flags N, V, Z, C come from the binary helper when D is clear; with D set ADC
uses `addDec` throughout and SBC takes only the result byte from `subDec`. Nothing else changes but what the operand read
changes in a device. -/
def Obligations.AddAndSubtractWithCarry : Prop :=
  HasForms .adc
    { imm := some 0x69#8, zp := some 0x65#8, zpx := some 0x75#8, abs := some 0x6D#8, absx := some 0x7D#8
      absy := some 0x79#8, indx := some 0x61#8, indy := some 0x71#8 } ∧
  HasForms .sbc
    { imm := some 0xE9#8, zp := some 0xE5#8, zpx := some 0xF5#8, abs := some 0xED#8, absx := some 0xFD#8
      absy := some 0xF9#8, indx := some 0xE1#8, indy := some 0xF1#8 } ∧
  ∀ (i : Instr) (s : State), i.mnemonic = .adc ∨ i.mnemonic = .sbc →
    let s0 := stepOver i.mode s
    let M := readOperand i.mode s0
    let flags :=
      if i.mnemonic = .adc then (if s.p.d then addDec s.a M.1 s.p.c else addBin s.a M.1 s.p.c) else subBin s.a M.1 s.p.c
    let result :=
      if i.mnemonic = .adc then flags.r else if s.p.d then (subDec s.a M.1 s.p.c).r else (subBin s.a M.1 s.p.c).r
    ∃ t, exec i s = .next t ∧ t.pc = nextPC i s ∧ t.a = result ∧
      t.p = { s.p with n := flags.n, v := flags.v, z := flags.z, c := flags.c } ∧
      t.x = s.x ∧ t.y = s.y ∧ t.sp = s.sp ∧ Ran (s.cyclesOf i.opcode + readExtra i.mode s0) s t ∧ SameMemory s t ∧
      SameDevices M.2 t

/-- CMP, CPX and CPY in every form (R245 to R248): C is the unsigned comparison, Z equality, N bit 7 of the difference; V and D,
the register and everything else are as before. -/
def Obligations.ComparesWriteCZNOnly : Prop :=
  HasForms .cmp
    { imm := some 0xC9#8, zp := some 0xC5#8, zpx := some 0xD5#8, abs := some 0xCD#8, absx := some 0xDD#8
      absy := some 0xD9#8, indx := some 0xC1#8, indy := some 0xD1#8 } ∧
  HasForms .cpx { imm := some 0xE0#8, zp := some 0xE4#8, abs := some 0xEC#8 } ∧
  HasForms .cpy { imm := some 0xC0#8, zp := some 0xC4#8, abs := some 0xCC#8 } ∧
  ∀ (i : Instr) (s : State), i.mnemonic ∈ [Mnemonic.cmp, .cpx, .cpy] →
    let s0 := stepOver i.mode s
    let M := readOperand i.mode s0
    let r := if i.mnemonic = .cmp then s.a else if i.mnemonic = .cpx then s.x else s.y
    ∃ t, exec i s = .next t ∧ t.pc = nextPC i s ∧ SameRegisters s t ∧
      t.p = { s.p with c := decide (M.1.toNat ≤ r.toNat), z := decide (r = M.1), n := (r - M.1).getLsbD 7 } ∧
      Ran (s.cyclesOf i.opcode + readExtra i.mode s0) s t ∧ SameMemory s t ∧ SameDevices M.2 t

/-- AND, ORA and EOR in every form (R270 to R272): A is combined with the operand, and N and Z follow it. Nothing else changes but
what the operand read changes in a device. -/
def Obligations.LogicCombinesAccumulator : Prop :=
  HasForms .and
    { imm := some 0x29#8, zp := some 0x25#8, zpx := some 0x35#8, abs := some 0x2D#8, absx := some 0x3D#8
      absy := some 0x39#8, indx := some 0x21#8, indy := some 0x31#8 } ∧
  HasForms .ora
    { imm := some 0x09#8, zp := some 0x05#8, zpx := some 0x15#8, abs := some 0x0D#8, absx := some 0x1D#8
      absy := some 0x19#8, indx := some 0x01#8, indy := some 0x11#8 } ∧
  HasForms .eor
    { imm := some 0x49#8, zp := some 0x45#8, zpx := some 0x55#8, abs := some 0x4D#8, absx := some 0x5D#8
      absy := some 0x59#8, indx := some 0x41#8, indy := some 0x51#8 } ∧
  ∀ (i : Instr) (s : State), i.mnemonic ∈ [Mnemonic.and, .ora, .eor] →
    let s0 := stepOver i.mode s
    let M := readOperand i.mode s0
    let r := if i.mnemonic = .and then s.a &&& M.1 else if i.mnemonic = .ora then s.a ||| M.1 else s.a ^^^ M.1
    ∃ t, exec i s = .next t ∧ t.pc = nextPC i s ∧ t.a = r ∧ t.p = nzOf s.p r ∧ t.x = s.x ∧ t.y = s.y ∧ t.sp = s.sp ∧
      Ran (s.cyclesOf i.opcode + readExtra i.mode s0) s t ∧ SameMemory s t ∧ SameDevices M.2 t

/-- BIT in both forms (R273): Z from A and the operand, N and V from bits 7 and 6 of the operand itself; A is not written, and the
effective address is read once. -/
def Obligations.BitTestReadsOnceAndWritesNVZ : Prop :=
  HasForms .bit { zp := some 0x24#8, abs := some 0x2C#8 } ∧
  ∀ (i : Instr) (s : State), i.mnemonic = .bit →
    let M := busRead (effectiveAddress i.mode (stepOver i.mode s)) (stepOver i.mode s)
    ∃ t, exec i s = .next t ∧ t.pc = nextPC i s ∧ SameRegisters s t ∧
      t.p = { s.p with z := decide (s.a &&& M.1 = 0#8), n := M.1.getLsbD 7, v := M.1.getLsbD 6 } ∧
      Ran (s.cyclesOf i.opcode) s t ∧ SameMemory s t ∧ SameDevices M.2 t

/-- ASL, LSR, ROL and ROR on the accumulator (R274 to R277, R179): the result, the carry from the bit shifted out, N and Z from the
result; no memory access, and nothing else changes. -/
def Obligations.AccumulatorShifts : Prop :=
  ∀ (i : Instr) (s : State), i ∈ [Instr.aslAcc, .lsrAcc, .rolAcc, .rorAcc] →
    let r : Nat :=
      if i = .aslAcc then 2 * s.a.toNat % 256
      else if i = .lsrAcc then s.a.toNat / 2
      else if i = .rolAcc then (2 * s.a.toNat + s.p.c.toNat) % 256
      else s.a.toNat / 2 + 128 * s.p.c.toNat
    let out := if i = .aslAcc ∨ i = .rolAcc then s.a.getLsbD 7 else s.a.getLsbD 0
    ∃ t, exec i s = .next t ∧ t.pc = nextPC i s ∧ t.a.toNat = r ∧ t.x = s.x ∧ t.y = s.y ∧ t.sp = s.sp ∧
      t.p = nzOf { s.p with c := out } t.a ∧ Ran (s.cyclesOf i.opcode) s t ∧ SameMemory s t ∧ SameDevices s t

/-- ASL, LSR, ROL, ROR, INC and DEC on memory (R274 to R278, R249, R250): one read of the effective address, the result written
there once, after a write of the old value when `RMW_DUMMY_WRITE` is set; C takes the bit shifted out, and INC and DEC leave
it; N and Z from the result; no page penalty. Every byte of RAM but the one at the effective address reads as before. -/
def Obligations.ReadModifyWriteOnMemory : Prop :=
  HasForms .asl { acc := some 0x0A#8, zp := some 0x06#8, zpx := some 0x16#8, abs := some 0x0E#8, absx := some 0x1E#8 } ∧
  HasForms .lsr { acc := some 0x4A#8, zp := some 0x46#8, zpx := some 0x56#8, abs := some 0x4E#8, absx := some 0x5E#8 } ∧
  HasForms .rol { acc := some 0x2A#8, zp := some 0x26#8, zpx := some 0x36#8, abs := some 0x2E#8, absx := some 0x3E#8 } ∧
  HasForms .ror { acc := some 0x6A#8, zp := some 0x66#8, zpx := some 0x76#8, abs := some 0x6E#8, absx := some 0x7E#8 } ∧
  HasForms .inc { zp := some 0xE6#8, zpx := some 0xF6#8, abs := some 0xEE#8, absx := some 0xFE#8 } ∧
  HasForms .dec { zp := some 0xC6#8, zpx := some 0xD6#8, abs := some 0xCE#8, absx := some 0xDE#8 } ∧
  ∀ (i : Instr) (s : State), i.mnemonic ∈ [Mnemonic.asl, .lsr, .rol, .ror, .inc, .dec] → i.mode ≠ .acc →
    let s0 := stepOver i.mode s
    let ea := effectiveAddress i.mode s0
    let v := busRead ea s0
    let n : Nat :=
      if i.mnemonic = .asl then 2 * v.1.toNat
      else if i.mnemonic = .lsr then v.1.toNat / 2
      else if i.mnemonic = .rol then 2 * v.1.toNat + s.p.c.toNat
      else if i.mnemonic = .ror then v.1.toNat / 2 + 128 * s.p.c.toNat
      else if i.mnemonic = .inc then v.1.toNat + 1
      else v.1.toNat + 255
    let r := BitVec.ofNat 8 n
    let out :=
      if i.mnemonic = .asl ∨ i.mnemonic = .rol then v.1.getLsbD 7
      else if i.mnemonic = .lsr ∨ i.mnemonic = .ror then v.1.getLsbD 0
      else s.p.c
    let w := busWrite ea r (if s.cfg.rmwDummyWrite then busWrite ea v.1 v.2 else v.2)
    ∃ t, exec i s = .next t ∧ t.pc = nextPC i s ∧ SameRegisters s t ∧ t.p = nzOf { s.p with c := out } r ∧
      Ran (s.cyclesOf i.opcode) s t ∧ SameMemory w t ∧ SameDevices w t ∧ WrittenAt ea v.2 t ∧
      (∀ a : Nat, a ≠ ea.toNat → t.ram.read a = s.ram.read a) ∧ (writeRoute s.visible ea ≠ .io → t.ram.read ea.toNat = r)

/-- INX, INY, DEX and DEY (R251 to R254): the register steps by one modulo 256, and N and Z follow it. Nothing else changes. -/
def Obligations.IndexRegistersStepByOne : Prop :=
  HasForms .inx { impl := some 0xE8#8 } ∧ HasForms .iny { impl := some 0xC8#8 } ∧ HasForms .dex { impl := some 0xCA#8 } ∧
  HasForms .dey { impl := some 0x88#8 } ∧
  ∀ (i : Instr) (s : State), i ∈ [Instr.inx, .iny, .dex, .dey] →
    let old := if i = .inx ∨ i = .dex then s.x else s.y
    let new := BitVec.ofNat 8 (if i = .inx ∨ i = .iny then old.toNat + 1 else old.toNat + 255)
    ∃ t, exec i s = .next t ∧ t.pc = nextPC i s ∧ t.a = s.a ∧ t.sp = s.sp ∧
      t.x = (if i = .inx ∨ i = .dex then new else s.x) ∧ t.y = (if i = .iny ∨ i = .dey then new else s.y) ∧
      t.p = nzOf s.p new ∧ Ran (s.cyclesOf i.opcode) s t ∧ SameMemory s t ∧ SameDevices s t

/-! Control flow. -/

/-- JMP (R290, R177): PC becomes the operand, or the word read through the bus at the pointer, whose second byte comes from the
pointer's own page when `JMP_IND_PAGE_WRAP` is set and from the next address when it is not. Nothing else changes. -/
def Obligations.JumpsSetPC : Prop :=
  HasForms .jmp { abs := some 0x4C#8, ind := some 0x6C#8 } ∧
  ∀ (a : Word) (s : State),
    (∃ t, exec (.jmpAbs a) s = .next t ∧ t.pc = a ∧ t.p = s.p ∧ SameRegisters s t ∧ Ran (s.cyclesOf 0x4C#8) s t ∧
      SameMemory s t ∧ SameDevices s t) ∧
    (let second := if s.cfg.jmpIndPageWrap then (a &&& 0xFF00#16) ||| ((a + 1#16) &&& 0x00FF#16) else a + 1#16
     let lo := busRead a (stepOver (.ind a) s)
     let hi := busRead second lo.2
     ∃ t, exec (.jmpInd a) s = .next t ∧ t.pc = wordOf lo.1 hi.1 ∧ t.p = s.p ∧ SameRegisters s t ∧
      Ran (s.cyclesOf 0x6C#8) s t ∧ SameMemory s t ∧ SameDevices hi.2 t)

/-- JSR and RTS (R291, R292): JSR pushes the address of its own last byte, high byte first, and goes to its operand; RTS pulls a
word, low byte first, and goes to the address after it. Every byte of RAM but the two pushed reads as before. -/
def Obligations.SubroutineCallAndReturn : Prop :=
  HasForms .jsr { abs := some 0x20#8 } ∧ HasForms .rts { impl := some 0x60#8 } ∧
  (∀ (a : Word) (s : State),
    let ret := s.pc + 2#16
    ∃ t, exec (.jsr a) s = .next t ∧ t.pc = a ∧ t.p = s.p ∧ t.a = s.a ∧ t.x = s.x ∧ t.y = s.y ∧ t.sp = s.sp - 2#8 ∧
      t.ram.read (stackAddr s.sp).toNat = hiByte ret ∧ t.ram.read (stackAddr (s.sp - 1#8)).toNat = loByte ret ∧
      (∀ k : Nat, k ≠ (stackAddr s.sp).toNat → k ≠ (stackAddr (s.sp - 1#8)).toNat → t.ram.read k = s.ram.read k) ∧
      (∀ k, t.color.read k = s.color.read k) ∧ t.bankByte = s.bankByte ∧ Ran (s.cyclesOf 0x20#8) s t ∧ SameDevices s t) ∧
  (∀ s : State,
    let lo := s.ram.read (stackAddr (s.sp + 1#8)).toNat
    let hi := s.ram.read (stackAddr (s.sp + 2#8)).toNat
    ∃ t, exec .rts s = .next t ∧ t.pc = wordOf lo hi + 1#16 ∧ t.p = s.p ∧ t.a = s.a ∧ t.x = s.x ∧ t.y = s.y ∧
      t.sp = s.sp + 2#8 ∧ Ran (s.cyclesOf 0x60#8) s t ∧ SameMemory s t ∧ SameDevices s t)

/-- A subroutine returns (R291, R292): RTS, in any state whose SP and whose two bytes above it on the stack page are those JSR
left, whatever the rest of the state, comes back to the instruction after the JSR with the SP the JSR found. -/
def Obligations.ReturnGoesAfterTheCall : Prop :=
  ∀ (a : Word) (s t u : State), exec (.jsr a) s = .next t → u.sp = t.sp →
    stackByte u (t.sp + 1#8) = stackByte t (t.sp + 1#8) → stackByte u (t.sp + 2#8) = stackByte t (t.sp + 2#8) →
    ∃ w, exec .rts u = .next w ∧ w.pc = s.pc + 3#16 ∧ w.sp = s.sp

/-- The eight branches (R293 to R301): taken on the flag each names, to the next instruction's address plus the signed offset
modulo 0x10000; a branch not taken adds no cycle to the opcode's cost, 2 in the default table, one taken in its page adds 1, one
taken across a page adds 2. Nothing else changes. -/
def Obligations.BranchesFollowTheirFlag : Prop :=
  HasForms .bcc { rel := some 0x90#8 } ∧ HasForms .bcs { rel := some 0xB0#8 } ∧ HasForms .beq { rel := some 0xF0#8 } ∧
  HasForms .bmi { rel := some 0x30#8 } ∧ HasForms .bne { rel := some 0xD0#8 } ∧ HasForms .bpl { rel := some 0x10#8 } ∧
  HasForms .bvc { rel := some 0x50#8 } ∧ HasForms .bvs { rel := some 0x70#8 } ∧
  ∀ (d : Byte) (s : State) (i : Instr) (taken : Bool),
    (i, taken) ∈
      [(Instr.bcc d, !s.p.c), (.bcs d, s.p.c), (.beq d, s.p.z), (.bmi d, s.p.n), (.bne d, !s.p.z), (.bpl d, !s.p.n),
        (.bvc d, !s.p.v), (.bvs d, s.p.v)] →
    let next := s.pc + 2#16
    let target := BitVec.ofInt 16 ((next.toNat : Int) + d.toInt)
    let extra := if taken then (if target.toNat / 256 = next.toNat / 256 then 1 else 2) else 0
    ∃ t, exec i s = .next t ∧ t.pc = (if taken then target else next) ∧ t.p = s.p ∧ SameRegisters s t ∧
      Ran (s.cyclesOf i.opcode + extra) s t ∧ SameMemory s t ∧ SameDevices s t ∧
      (s.cfg.cycleTable = nmosCycles → s.cyclesOf i.opcode = 2)

/-- BRK (R302): the entry sequence with the address of the BRK plus 2, break bit 1 and the vector at 0xFFFE, whatever the I flag;
D is not cleared, and the NMI latch is not touched. -/
def Obligations.BreakEntersTheIrqVector : Prop :=
  HasForms .brk { brk := some 0x00#8 } ∧
  ∀ s : State, ∃ t, exec .brk s = .next t ∧ Entered true 0xFFFE#16 (s.pc + 2#16) (s.cyclesOf 0x00#8) s t ∧
    t.nmiAck = s.nmiAck

/-- RTI (R303): the flags come from the first byte pulled, with its bits 5 and 4 discarded, and PC from the next two, low byte
first, with nothing added; the NMI latch, memory and the devices are as before, and one draw is taken for the stored break flag.
How RTI takes that draw is the model's (notes/assumptions/19.md). -/
def Obligations.ReturnFromInterruptRestores : Prop :=
  HasForms .rti { impl := some 0x40#8 } ∧
  ∀ s : State,
    ∃ t, exec .rti s = .next t ∧ RestoredFrom t.p (s.ram.read (stackAddr (s.sp + 1#8)).toNat) ∧
      t.pc = wordOf (s.ram.read (stackAddr (s.sp + 2#8)).toNat) (s.ram.read (stackAddr (s.sp + 3#8)).toNat) ∧
      t.sp = s.sp + 3#8 ∧ t.a = s.a ∧ t.x = s.x ∧ t.y = s.y ∧ Ran (s.cyclesOf 0x40#8) s t ∧ SameMemory s t ∧
      SameDevices { s with draws := s.draws + 1 } t

/-- NOP and the seven flag instructions (R304, R320 to R326): each flag instruction writes the one flag it names and NOP writes
nothing; only PC and the cycle counts change besides. -/
def Obligations.FlagInstructionsWriteOneFlag : Prop :=
  HasForms .nop { impl := some 0xEA#8 } ∧ HasForms .clc { impl := some 0x18#8 } ∧ HasForms .cld { impl := some 0xD8#8 } ∧
  HasForms .cli { impl := some 0x58#8 } ∧ HasForms .clv { impl := some 0xB8#8 } ∧ HasForms .sec { impl := some 0x38#8 } ∧
  HasForms .sed { impl := some 0xF8#8 } ∧ HasForms .sei { impl := some 0x78#8 } ∧
  ∀ (s : State) (i : Instr) (p : Status),
    (i, p) ∈
      [(Instr.nop, s.p), (.clc, { s.p with c := false }), (.cld, { s.p with d := false }), (.cli, { s.p with i := false }),
        (.clv, { s.p with v := false }), (.sec, { s.p with c := true }), (.sed, { s.p with d := true }),
        (.sei, { s.p with i := true })] →
    ∃ t, exec i s = .next t ∧ t.pc = nextPC i s ∧ t.p = p ∧ SameRegisters s t ∧ Ran (s.cyclesOf i.opcode) s t ∧
      SameMemory s t ∧ SameDevices s t

/-- An illegal opcode halts the core for good (R410, R411, R168, R804): the halt record takes the byte and its address, and
nothing else changes, PC and the cycle counts included; every later step is the fault with the recorded byte and address,
whatever is pending, except that a host's reset restarts the core when `RESET_ON_HALT` is set. That the fetch is a next state
and every later step the fault is the model's reading (notes/assumptions/13.md), and so is what a halted core takes from the
host (notes/assumptions/10.md). -/
def Obligations.IllegalOpcodeHaltsForGood : Prop :=
  (∀ (op : Byte) (s : State),
    ∃ t, exec (.illegal op) s = .next t ∧ t.halted = true ∧ t.haltPC = s.pc ∧ t.haltOp = op ∧ t.pc = s.pc ∧ t.p = s.p ∧
      SameRegisters s t ∧ SameMemory s t ∧ SameDevices s t ∧ t.lineCycles = s.lineCycles ∧ t.sinceCheck = s.sinceCheck ∧
      t.phase = s.phase ∧ t.inject = s.inject ∧ t.hostPlan = s.hostPlan ∧ t.cfg = s.cfg) ∧
  (∀ s : State, s.halted = true →
    ((∀ rest, s.hostPlan ≠ .host .reset :: rest) ∨ s.cfg.resetOnHalt = false →
      step s = .fault (.illegalOpcode s.haltOp s.haltPC)) ∧
    (∀ rest, s.hostPlan = .host .reset :: rest → s.cfg.resetOnHalt = true →
      ∃ t, step s = .next t ∧ t.halted = false ∧ t.ram = s.ram ∧ t.hostPlan = rest))

/-! Interrupts. -/

/-- The two hardware entries as steps (R420 to R422, R424): at a CPU step, an NMI when the NMI line and the latch hold, else an IRQ
when the IRQ line holds and I is clear; each is a step of its own, with break bit 0 and 7 cycles, and the NMI closes its
latch. -/
def Obligations.InterruptEntriesAreSteps : Prop :=
  (∀ s : State, AtCpuStep s → s.nmiLine = true → s.nmiAck = true →
    ∃ t, step s = .next t ∧ Entered false 0xFFFA#16 s.pc 7 s t ∧ t.nmiAck = false) ∧
  (∀ s : State, AtCpuStep s → (s.nmiLine && s.nmiAck) = false → s.irqLine = true → s.p.i = false →
    ∃ t, step s = .next t ∧ Entered false 0xFFFE#16 s.pc 7 s t ∧ t.nmiAck = s.nmiAck)

/-- The interrupt lines (R415): the IRQ line is the video chip's composite or CIA1's, the NMI line is CIA2's; a latch bit whose
enable or mask bit is 0 asserts no line. -/
def Obligations.InterruptLinesFollowLatchAndEnable : Prop :=
  ∀ s : State, CiaInv s.cia1 → CiaInv s.cia2 →
    (s.irqLine = true ↔
      (∃ k < 4, s.vic.latch.getLsbD k = true ∧ s.vic.enable.getLsbD k = true) ∨
        (∃ k < 5, s.cia1.icrLatch.getLsbD k = true ∧ s.cia1.icrMask.getLsbD k = true)) ∧
    (s.nmiLine = true ↔ ∃ k < 5, s.cia2.icrLatch.getLsbD k = true ∧ s.cia2.icrMask.getLsbD k = true)

/-- An interrupt and its return (R421, R303): after an interrupt entry of any kind, RTI brings back PC, SP and every flag but the
stored break flag, and leaves A, X and Y as they were. -/
def Obligations.ReturnUndoesInterruptEntry : Prop :=
  ∀ (b : Bool) (vector : Word) (s : State),
    ∃ t, exec .rti (takeInterrupt b vector s) = .next t ∧ t.pc = s.pc ∧ t.sp = s.sp ∧ t.a = s.a ∧ t.x = s.x ∧ t.y = s.y ∧
      t.p.n = s.p.n ∧ t.p.v = s.p.v ∧ t.p.d = s.p.d ∧ t.p.i = s.p.i ∧ t.p.z = s.p.z ∧ t.p.c = s.p.c

/-! The bus. -/

/-- The routing of a read, first match wins (R110). -/
def Obligations.ReadsAreRoutedByBankMode : Prop :=
  ∀ (a : Word) (s : State),
    let f := bankRow s.cfg.bankTable (s.bankByte.extractLsb' 0 3)
    busRead a s =
      if f.basic = true ∧ 0xA000 ≤ a.toNat ∧ a.toNat ≤ 0xBFFF then (Memory.read (w := 8) s.cfg.basicRom (a.toNat - 0xA000), s)
      else if f.kernal = true ∧ 0xE000 ≤ a.toNat then (Memory.read (w := 8) s.cfg.kernalRom (a.toNat - 0xE000), s)
      else if f.io = true ∧ 0xD000 ≤ a.toNat ∧ a.toNat ≤ 0xDFFF then ioRead a s
      else if f.char = true ∧ 0xD000 ≤ a.toNat ∧ a.toNat ≤ 0xDFFF then
        (Memory.read (w := 8) s.cfg.charRom (a.toNat - 0xD000), s)
      else if a.toNat = 1 then (s.bankByte, s)
      else (s.ram.read a.toNat, s)

/-- The routing of a write (R112, R114 to R116, R118): 0x0001 is the bank byte and its RAM byte, the I/O range is the devices when
visible, and everything else is RAM, under a visible ROM too. 0xDE00 to 0xDFFF ignores a write, and a colour cell keeps the low
nibble, which reads back (R117). -/
def Obligations.WritesAreRoutedByBankMode : Prop :=
  ∀ (a : Word) (v : Byte) (s : State),
    let f := bankRow s.cfg.bankTable (s.bankByte.extractLsb' 0 3)
    let t := busWrite a v s
    (a.toNat = 1 → t = { s with bankByte := v, ram := s.ram.write 1 v }) ∧
    (f.io = true ∧ 0xD000 ≤ a.toNat ∧ a.toNat ≤ 0xDFFF → t = ioWrite a v s) ∧
    (f.io = true ∧ 0xDE00 ≤ a.toNat ∧ a.toNat ≤ 0xDFFF → t = s) ∧
    (f.io = true ∧ 0xD800 ≤ a.toNat ∧ a.toNat ≤ 0xDBFF →
      t = { s with color := s.color.write (a.toNat - 0xD800) (v.extractLsb' 0 4) } ∧
      (busRead a t).1.extractLsb' 0 4 = v.extractLsb' 0 4) ∧
    (a.toNat ≠ 1 → ¬(f.io = true ∧ 0xD000 ≤ a.toNat ∧ a.toNat ≤ 0xDFFF) → t = { s with ram := s.ram.write a.toNat v }) ∧
    t.cfg = s.cfg

/-- The bank truth table (R102): the mode is bits 2..0 of the bank byte and picks the row; the eight rows BASIC, KERNAL, I/O, CHAR
at their default; and `BANK_TABLE_DOC`, in which row 3 is pure RAM (R103). -/
def Obligations.BankTableRows : Prop :=
  (∀ s : State,
    let b := s.cfg.bankTable
    s.visible =
      match s.bankByte.toNat % 8 with
      | 0 => b.row0
      | 1 => b.row1
      | 2 => b.row2
      | 3 => b.row3
      | 4 => b.row4
      | 5 => b.row5
      | 6 => b.row6
      | _ => b.row7) ∧
  (∀ s : State, s.cfg.bankTable = BankTable.standard →
    s.visible =
      match s.bankByte.toNat % 8 with
      | 0 => ⟨false, false, false, false⟩
      | 1 => ⟨false, false, false, true⟩
      | 2 => ⟨false, true, false, true⟩
      | 3 => ⟨true, true, false, true⟩
      | 4 => ⟨false, false, false, false⟩
      | 5 => ⟨false, false, true, false⟩
      | 6 => ⟨false, true, true, false⟩
      | _ => ⟨true, true, true, false⟩) ∧
  BankTable.doc = { BankTable.standard with row3 := ⟨false, false, false, false⟩ }

/-- RAM under a ROM (R116): a byte written where a ROM is visible lies in the RAM beneath, is not read back while the ROM is
visible, and is read once a write to 0x0001 chooses a bank mode that shows RAM there. -/
def Obligations.WritesUnderRomReachRam : Prop :=
  ∀ (a : Word) (v mode : Byte) (s : State), a ≠ 0x0001#16 →
    (readRoute s.visible a = .basicRom ∨ readRoute s.visible a = .kernalRom ∨ readRoute s.visible a = .charRom) →
    let t := busWrite a v s
    (busRead a t).1 = (busRead a s).1 ∧ t.ram.read a.toNat = v ∧
    (readRoute (busWrite 0x0001#16 mode t).visible a = .ram → (busRead a (busWrite 0x0001#16 mode t)).1 = v)

/-- The reads that have an effect (R123): a read outside the I/O range changes nothing; a read in it changes no register, no byte of
memory and no sound chip; the video chip only at 0x1E and 0x1F, which clear; a timer controller only at its indices 0x08,
0x0B and 0x0D; and the NMI latch only at 0x0D of CIA2, which sets it. -/
def Obligations.ReadSideEffects : Prop :=
  ∀ (a : Word) (s : State),
    let t := (busRead a s).2
    (readRoute s.visible a ≠ .io → t = s) ∧
    SameRegisters s t ∧ t.pc = s.pc ∧ t.p = s.p ∧ SameMemory s t ∧ SameRun s t ∧ t.sid = s.sid ∧
    t.lineCycles = s.lineCycles ∧ t.sinceCheck = s.sinceCheck ∧
    (readRoute s.visible a = .io →
      (a.toNat ≤ 0xD3FF ∧ a.toNat % 64 = 0x1E → t.vic = { s.vic with collSS := 0 }) ∧
      (a.toNat ≤ 0xD3FF ∧ a.toNat % 64 = 0x1F → t.vic = { s.vic with collSD := 0 }) ∧
      (¬(a.toNat ≤ 0xD3FF ∧ (a.toNat % 64 = 0x1E ∨ a.toNat % 64 = 0x1F)) → t.vic = s.vic) ∧
      (¬(0xDC00 ≤ a.toNat ∧ a.toNat ≤ 0xDCFF ∧ a.toNat % 16 ∈ [0x8, 0xB, 0xD]) → t.cia1 = s.cia1) ∧
      (¬(0xDD00 ≤ a.toNat ∧ a.toNat ≤ 0xDDFF ∧ a.toNat % 16 ∈ [0x8, 0xB, 0xD]) → t.cia2 = s.cia2) ∧
      t.nmiAck = (s.nmiAck || decide (0xDD00 ≤ a.toNat ∧ a.toNat ≤ 0xDDFF ∧ a.toNat % 16 = 0xD)))

/-! The video chip. -/

/-- Reads of the video chip (R111, R611, R612, R616 to R618): the window mirrors every 64 bytes; 0x11 gives the raster's bit 8 over
the stored bits, 0x12 the raster, 0x19 the composite and the latch, 0x1A the enable bits; 0x1E and 0x1F give their register
and clear it; colours give their low nibble; the other stored registers read back. -/
def Obligations.VideoRegisterReads : Prop :=
  ∀ (s : State) (m : Nat) (i : BitVec 6), m < 16 →
    let a := BitVec.ofNat 16 (0xD000 + 64 * m + i.toNat)
    let n := i.toNat
    let v := (busRead a s).1
    let t := (busRead a s).2
    readRoute s.visible a = .io →
      (n = 0x11 → v.toNat = (s.vic.reg 0x11).toNat % 128 + 128 * (s.vic.raster.toNat / 256)) ∧
      (n = 0x12 → v.toNat = s.vic.raster.toNat % 256) ∧
      (n = 0x19 → v.extractLsb' 0 4 = s.vic.latch ∧ v.getLsbD 7 = s.vic.irq) ∧
      (n = 0x1A → v.extractLsb' 0 4 = s.vic.enable) ∧
      (n = 0x1E → v = s.vic.collSS ∧ t.vic = { s.vic with collSS := 0 }) ∧
      (n = 0x1F → v = s.vic.collSD ∧ t.vic = { s.vic with collSD := 0 }) ∧
      (0x20 ≤ n ∧ n ≤ 0x2E → v.extractLsb' 0 4 = (s.vic.reg n).extractLsb' 0 4) ∧
      (n = 0x16 → v.extractLsb' 0 6 = (s.vic.reg n).extractLsb' 0 6) ∧
      (n = 0x18 → v.extractLsb' 1 7 = (s.vic.reg n).extractLsb' 1 7) ∧
      (n ≤ 0x10 ∨ n = 0x15 ∨ n = 0x17 ∨ n = 0x1B ∨ n = 0x1C ∨ n = 0x1D → v = s.vic.reg n ∧ t = s)

/-- Writes of the video chip (R113, R611, R620 to R623): 0x19 clears the latch bits written as 1; 0x1A is the enable bits; 0x11 and
0x12 are stored and set the raster compare; the light pen, the collision registers and 0x2F to 0x3F ignore a write; every
other index stores the byte and nothing else. Nothing outside the chip changes. -/
def Obligations.VideoRegisterWrites : Prop :=
  ∀ (s : State) (m : Nat) (i : BitVec 6) (v : Byte), m < 16 →
    let a := BitVec.ofNat 16 (0xD000 + 64 * m + i.toNat)
    let n := i.toNat
    let w := (busWrite a v s).vic
    writeRoute s.visible a = .io →
      busWrite a v s = { s with vic := w } ∧
      (n = 0x19 → (∀ k < 4, w.latch.getLsbD k = (s.vic.latch.getLsbD k && !v.getLsbD k)) ∧ w = { s.vic with latch := w.latch }) ∧
      (n = 0x1A → w = { s.vic with enable := v.extractLsb' 0 4 }) ∧
      (n = 0x11 → w.compare.toNat = s.vic.compare.toNat % 256 + 256 * (v.toNat / 128)) ∧
      (n = 0x12 → w.compare.toNat = s.vic.compare.toNat / 256 * 256 + v.toNat) ∧
      (n ∈ [0x13, 0x14, 0x1E, 0x1F] ∨ 0x2F ≤ n → w = s.vic) ∧
      (n ∉ [0x13, 0x14, 0x19, 0x1A, 0x1E, 0x1F] → n < 0x2F →
        w.reg n = v ∧ (∀ k, k ≠ n → w.reg k = s.vic.reg k) ∧
        w = { s.vic with regs := w.regs, compare := w.compare } ∧ (n ≠ 0x11 → n ≠ 0x12 → w.compare = s.vic.compare))

/-- The start of a raster line (R630 to R632, R440): the raster steps modulo 312; latch bit 0 is set when it meets the compare
value, enabled or not; the line steals `BADLINE_CYCLES` exactly on a bad line, which chooses the loop's next place and its
budget; the line's cycle count restarts. Nothing else changes. One action a step is the model's choice (notes/assumptions/8.md).
-/
def Obligations.RasterAdvancesAndBadLinesSteal : Prop :=
  ∀ s : State, AtCore s → s.phase = .lineStart →
    ∃ t, step s = .next t ∧
      t.vic.raster.toNat = (s.vic.raster.toNat + 1) % 312 ∧
      (t.vic.latch.getLsbD 0 = (s.vic.latch.getLsbD 0 || decide (t.vic.raster = s.vic.compare))) ∧
      (∀ k, 1 ≤ k → t.vic.latch.getLsbD k = s.vic.latch.getLsbD k) ∧
      t.vic = { s.vic with raster := t.vic.raster, latch := t.vic.latch } ∧
      (let bad : Prop :=
        t.vic.raster.toNat % 8 = (s.vic.reg 0x11).toNat % 8 ∧ 0x30 ≤ t.vic.raster.toNat ∧ t.vic.raster.toNat ≤ 0xF7 ∧
          (s.vic.reg 0x11).getLsbD 4 = true
       (bad → s.cfg.badlineCycles ≠ 0 → t.phase = .lastBatch (s.cfg.lineCycles - s.cfg.badlineCycles)) ∧
       (¬bad ∨ s.cfg.badlineCycles = 0 → t.phase = .firstBatch s.cfg.lineCycles)) ∧
      t.lineCycles = 0 ∧ t.sinceCheck = s.sinceCheck ∧ SameCpu s t ∧ SameMemory s t ∧
      t.cia1 = s.cia1 ∧ t.cia2 = s.cia2 ∧ t.sid = s.sid ∧ t.nmiAck = s.nmiAck ∧ t.draws = s.draws

/-- The collisions of a line (R676): a sprite is in the sprite-sprite mask exactly when some column shows it and another sprite,
and in the sprite-data mask exactly when some column shows it over a foreground pixel. -/
def Obligations.CollisionMasksNameTheOverlappingSprites : Prop :=
  ∀ (s : State) (r n : Nat), n < 8 →
    ((lineCollisions s r).1.getLsbD n = true ↔
      ∃ x < 320, (spritePixel s n r x).isSome ∧ ∃ m < 8, m ≠ n ∧ (spritePixel s m r x).isSome) ∧
    ((lineCollisions s r).2.getLsbD n = true ↔
      ∃ x < 320, (spritePixel s n r x).isSome ∧ (graphicsPixel s r x).fg = true)

/-- Drawing a line (R650, R662, R676, R677). The border entry of every line takes the border colour and a row outside the frame is
left alone. On a frame row with the display enabled the collision registers accumulate the masks of the line, and a latch bit
is set only when its mask is not empty and its source is enabled; on every other line, and with the display disabled, neither
changes, and with the display disabled every pixel of a frame row is the border colour. Nothing outside the chip changes. -/
def Obligations.DrawingALine : Prop :=
  ∀ s : State,
    let t := drawRasterline s
    let r := s.vic.raster.toNat
    let masks := lineCollisions s r
    let border := (s.vic.reg 0x20).extractLsb' 0 4
    t = { s with vic := { s.vic with
      latch := t.vic.latch, collSS := t.vic.collSS, collSD := t.vic.collSD, frame := t.vic.frame, border := t.vic.border } } ∧
    t.vic.borderAt r = border ∧ (∀ q, q ≠ r → t.vic.borderAt q = s.vic.borderAt q) ∧
    (¬(0x33 ≤ r ∧ r ≤ 0xFA) → t.vic.frame = s.vic.frame) ∧
    (0x33 ≤ r ∧ r ≤ 0xFA → ∀ y x, y ≠ r - 0x33 → t.vic.framePixel y x = s.vic.framePixel y x) ∧
    (0x33 ≤ r ∧ r ≤ 0xFA → (s.vic.reg 0x11).getLsbD 4 = false → ∀ x < 320, t.vic.framePixel (r - 0x33) x = border) ∧
    (0x33 ≤ r ∧ r ≤ 0xFA ∧ (s.vic.reg 0x11).getLsbD 4 = true →
      t.vic.collSS = s.vic.collSS ||| masks.1 ∧ t.vic.collSD = s.vic.collSD ||| masks.2 ∧
      (t.vic.latch.getLsbD 2 = true ↔
        s.vic.latch.getLsbD 2 = true ∨ (masks.1 ≠ 0 ∧ s.vic.enable.getLsbD 2 = true)) ∧
      (t.vic.latch.getLsbD 1 = true ↔
        s.vic.latch.getLsbD 1 = true ∨ (masks.2 ≠ 0 ∧ s.vic.enable.getLsbD 1 = true)) ∧
      t.vic.latch.getLsbD 0 = s.vic.latch.getLsbD 0 ∧ t.vic.latch.getLsbD 3 = s.vic.latch.getLsbD 3) ∧
    (¬(0x33 ≤ r ∧ r ≤ 0xFA ∧ (s.vic.reg 0x11).getLsbD 4 = true) →
      t.vic.collSS = s.vic.collSS ∧ t.vic.collSD = s.vic.collSD ∧ t.vic.latch = s.vic.latch)

/-- A standard text screen (R650, R651, R654, R656): with control 1 at 0x1B, control 2 at 0x08 and no sprite enabled, the pixel of
frame row y and column x is the colour of its cell where the character's bit is set, and background colour 0 elsewhere. -/
def Obligations.StandardTextPixels : Prop :=
  ∀ (s : State) (y x : Nat), y < 200 → x < 320 → s.vic.raster.toNat = 0x33 + y →
    s.vic.reg 0x11 = 0x1B#8 → s.vic.reg 0x16 = 0x08#8 → s.vic.reg 0x15 = 0x00#8 →
    let k := y / 8 * 40 + x / 8
    let vm := (s.vic.reg 0x18).toNat / 16 * 0x400
    let cb := (s.vic.reg 0x18).toNat / 2 % 8 * 0x800
    let d := videoRead s (cb + (videoRead s (vm + k)).toNat * 8 + y % 8)
    (drawRasterline s).vic.framePixel y x =
      if d.getLsbD (7 - x % 8) then s.color.read k else (s.vic.reg 0x21).extractLsb' 0 4

/-! The timer controllers. -/

/-- The interrupt register (R531, R532): a read of index 0x0D gives the composite in bit 7 and the latch in bits 4..0, clears both,
and at CIA2 sets the NMI latch; a write sets or clears the mask bits written as 1, by its bit 7, leaves the latch, and
recomputes the composite. The window mirrors every 16 bytes. -/
def Obligations.InterruptControlRegister : Prop :=
  ∀ (s : State) (m : Nat) (v : Byte), m < 16 →
    (let a := BitVec.ofNat 16 (0xDC00 + 16 * m + 0xD)
     readRoute s.visible a = .io →
      (busRead a s).1.toNat = s.cia1.icrLatch.toNat + 128 * s.cia1.icrFlag.toNat ∧
      (busRead a s).2 = { s with cia1 := { s.cia1 with icrLatch := 0, icrFlag := false } } ∧
      (let w := (busWrite a v s).cia1
       busWrite a v s = { s with cia1 := w } ∧ w = { s.cia1 with icrMask := w.icrMask, icrFlag := w.icrFlag } ∧
       (∀ k < 5, w.icrMask.getLsbD k = if v.getLsbD k then v.getLsbD 7 else s.cia1.icrMask.getLsbD k) ∧
       w.icrFlag = ((w.icrLatch &&& w.icrMask) != 0#5))) ∧
    (let a := BitVec.ofNat 16 (0xDD00 + 16 * m + 0xD)
     readRoute s.visible a = .io →
      (busRead a s).1.toNat = s.cia2.icrLatch.toNat + 128 * s.cia2.icrFlag.toNat ∧
      (busRead a s).2 = { s with cia2 := { s.cia2 with icrLatch := 0, icrFlag := false }, nmiAck := true } ∧
      (let w := (busWrite a v s).cia2
       busWrite a v s = { s with cia2 := w } ∧ w = { s.cia2 with icrMask := w.icrMask, icrFlag := w.icrFlag } ∧
       (∀ k < 5, w.icrMask.getLsbD k = if v.getLsbD k then v.getLsbD 7 else s.cia2.icrMask.getLsbD k) ∧
       w.icrFlag = ((w.icrLatch &&& w.icrMask) != 0#5)))

/-- The timer controllers' registers (R500, R511 to R514, R520 to R525). Writes: the ports and directions are stored; a serial
data write starts the countdown in output mode; a latch byte, whose high byte loads a stopped counter; a control write stores
all but its strobe bit 4, which loads the counter at once, and a start sets the toggle output; nothing else changes. Reads: the
directions, the counters, the serial data and the control bytes as they stand; CIA2's ports are the output values, the timer
outputs on bits 6 and 7 of port B; CIA1's are the same output values, timer outputs too, ANDed with a fresh probe, one draw a
read, any byte whatever (notes/assumptions/5.md). -/
def Obligations.TimerControllerRegisters : Prop :=
  (∀ (c : Cia) (v : Byte),
    c.write 0x0#4 v = { c with pra := v } ∧ c.write 0x1#4 v = { c with prb := v } ∧ c.write 0x2#4 v = { c with ddra := v } ∧
    c.write 0x3#4 v = { c with ddrb := v } ∧
    c.write 0xC#4 v = { c with sdr := v, shiftCount := if c.cra.getLsbD 6 then 16 else c.shiftCount } ∧
    c.write 0x4#4 v = { c with la := wordOf v (hiByte c.la) } ∧
    c.write 0x6#4 v = { c with lb := wordOf v (hiByte c.lb) } ∧
    (let la := wordOf (loByte c.la) v
     c.write 0x5#4 v = { c with la := la, ta := if c.cra.getLsbD 0 then c.ta else la }) ∧
    (let lb := wordOf (loByte c.lb) v
     c.write 0x7#4 v = { c with lb := lb, tb := if c.crb.getLsbD 0 then c.tb else lb }) ∧
    (let w := c.write 0xE#4 v
     w.cra = v &&& 0xEF#8 ∧ w.ta = (if v.getLsbD 4 then c.la else c.ta) ∧
     (w.pb6 = true ↔ c.pb6 = true ∨ (c.cra.getLsbD 0 = false ∧ v.getLsbD 0 = true)) ∧
     w = { c with cra := w.cra, ta := w.ta, pb6 := w.pb6 }) ∧
    (let w := c.write 0xF#4 v
     w.crb = v &&& 0xEF#8 ∧ w.tb = (if v.getLsbD 4 then c.lb else c.tb) ∧
     (w.pb7 = true ↔ c.pb7 = true ∨ (c.crb.getLsbD 0 = false ∧ v.getLsbD 0 = true)) ∧
     w = { c with crb := w.crb, tb := w.tb, pb7 := w.pb7 })) ∧
  (∀ (id : CiaId) (s : State),
    let c := s.cia id
    ciaRead id 0x2#4 s = (c.ddra, s) ∧ ciaRead id 0x3#4 s = (c.ddrb, s) ∧ ciaRead id 0x4#4 s = (loByte c.ta, s) ∧
    ciaRead id 0x5#4 s = (hiByte c.ta, s) ∧ ciaRead id 0x6#4 s = (loByte c.tb, s) ∧ ciaRead id 0x7#4 s = (hiByte c.tb, s) ∧
    ciaRead id 0xC#4 s = (c.sdr, s) ∧ ciaRead id 0xE#4 s = (c.cra &&& 0xEF#8, s) ∧
    ciaRead id 0xF#4 s = (c.crb &&& 0xEF#8, s)) ∧
  (∀ s : State,
    let c := s.cia2
    let low := c.prb ||| ~~~c.ddrb
    let port := (ciaRead .cia2 0x1#4 s).1
    ciaRead .cia2 0x0#4 s = (c.pra ||| ~~~c.ddra, s) ∧ (ciaRead .cia2 0x1#4 s).2 = s ∧
    (∀ k < 6, port.getLsbD k = low.getLsbD k) ∧
    port.getLsbD 6 = (if c.cra.getLsbD 1 then c.cra.getLsbD 2 && c.pb6 else low.getLsbD 6) ∧
    port.getLsbD 7 = (if c.crb.getLsbD 1 then c.crb.getLsbD 2 && c.pb7 else low.getLsbD 7)) ∧
  (∀ s : State,
    let c := s.cia1
    let probe := Config.freeByte s.draws
    let low := c.prb ||| ~~~c.ddrb
    let port := (ciaRead .cia1 0x1#4 s).1
    ciaRead .cia1 0x0#4 s = ((c.pra ||| ~~~c.ddra) &&& probe, { s with draws := s.draws + 1 }) ∧
    (ciaRead .cia1 0x1#4 s).2 = { s with draws := s.draws + 1 } ∧
    (∀ k < 6, port.getLsbD k = (low.getLsbD k && probe.getLsbD k)) ∧
    port.getLsbD 6 = ((if c.cra.getLsbD 1 then c.cra.getLsbD 2 && c.pb6 else low.getLsbD 6) && probe.getLsbD 6) ∧
    port.getLsbD 7 = ((if c.crb.getLsbD 1 then c.crb.getLsbD 2 && c.pb7 else low.getLsbD 7) && probe.getLsbD 7))

/-- Timer A at a check (R540): it counts only when started, clocked by cycles, and some passed; at or below zero it underflows once,
sets latch bit 0, toggles its output, and reloads, or in one-shot mode stops at 0; else it goes down by the cycles. -/
def Obligations.TimerACountsDownAtChecks : Prop :=
  (∀ (c : Cia) (delta : Nat),
    let out := c.advanceA delta
    let w := out.1
    let n : Int := c.ta.toNat - delta
    let counts : Prop := c.cra.getLsbD 0 = true ∧ c.cra.getLsbD 5 = false ∧ 0 < delta
    (¬counts → out = (c, false)) ∧
    (counts → n ≤ 0 →
      out.2 = true ∧ w.icrLatch = c.icrLatch ||| 1#5 ∧ w.pb6 = !c.pb6 ∧
      (c.cra.getLsbD 3 = false → w.ta = c.la ∧ w.cra = c.cra) ∧
      (c.cra.getLsbD 3 = true → w.ta = 0 ∧ w.cra = c.cra &&& 0xFE#8) ∧
      w = { c with icrLatch := w.icrLatch, pb6 := w.pb6, ta := w.ta, cra := w.cra }) ∧
    (counts → 0 < n → out.2 = false ∧ (w.ta.toNat : Int) = n ∧ w = { c with ta := w.ta })) ∧
  (∀ c : Cia, c.ta = 100#16 → c.la = 100#16 → c.cra = 0x01#8 →
    ((c.advanceA 100).1.icrLatch.getLsbD 0 = true ∧ (c.advanceA 100).1.ta = 100#16 ∧ (c.advanceA 100).1.cra = 0x01#8))

/-- The rest of a check (R541, R543, R544): the serial countdown steps on a timer A underflow in output mode and sets latch bit 3 at
its end; timer B counts the cycles, timer A's underflow, or nothing, by CRB bits 6 and 5, and underflows as timer A does with
latch bit 1; then the composite is recomputed. The time of day is not touched. -/
def Obligations.TimerBAndSerialCountdown : Prop :=
  ∀ (c : Cia) (delta : Nat),
    (∀ u : Bool,
      let w := c.advanceSerial u
      (c.cra.getLsbD 6 = true ∧ u = true ∧ c.shiftCount ≠ 0 →
        w = { c with
          shiftCount := c.shiftCount - 1
          icrLatch := if c.shiftCount = 1 then c.icrLatch ||| 8#5 else c.icrLatch }) ∧
      (¬(c.cra.getLsbD 6 = true ∧ u = true ∧ c.shiftCount ≠ 0) → w = c)) ∧
    (∀ u : Bool,
      let w := c.advanceB u delta
      let mode := c.crb.toNat / 32 % 4
      let k : Nat := if mode = 0 then delta else if mode = 1 then 0 else u.toNat
      let n : Int := c.tb.toNat - k
      (¬(c.crb.getLsbD 0 = true ∧ 0 < k) → w = c) ∧
      (c.crb.getLsbD 0 = true → 0 < k → n ≤ 0 →
        w.icrLatch = c.icrLatch ||| 2#5 ∧ w.pb7 = !c.pb7 ∧
        (c.crb.getLsbD 3 = false → w.tb = c.lb ∧ w.crb = c.crb) ∧
        (c.crb.getLsbD 3 = true → w.tb = 0 ∧ w.crb = c.crb &&& 0xFE#8) ∧
        w = { c with icrLatch := w.icrLatch, pb7 := w.pb7, tb := w.tb, crb := w.crb }) ∧
      (c.crb.getLsbD 0 = true → 0 < k → 0 < n → (w.tb.toNat : Int) = n ∧ w = { c with tb := w.tb })) ∧
    (let u := (c.advanceA delta).2
     let w := ((c.advanceA delta).1.advanceSerial u).advanceB u delta
     c.advance delta = { w with icrFlag := (w.icrLatch &&& w.icrMask) != 0#5 }) ∧
    (c.advance delta).tod = c.tod ∧ (c.advance delta).alarm = c.alarm ∧ (c.advance delta).todSnap = c.todSnap

/-- The clock's tick on a legal time (R551, R554): the new time is legal, one tenth of a second later modulo 24 hours, no draw is
taken, and the tick sets latch bit 2 exactly when the new time is the alarm's. A stopped clock does not move. -/
def Obligations.ClockTicksOneTenthOfASecond : Prop :=
  (∀ (t : Tod) (s : State), LegalTod t →
    LegalTod (todInc t s).1 ∧ todTenths (todInc t s).1 = (todTenths t + 1) % 864000 ∧ (todInc t s).2 = s) ∧
  (∀ (id : CiaId) (s : State), (s.cia id).todRunning = false → todTick id s = s) ∧
  (∀ (id : CiaId) (s : State), (s.cia id).todRunning = true → LegalTod (s.cia id).tod →
    let c := s.cia id
    let w := (todTick id s).cia id
    w.tod = (todInc c.tod s).1 ∧
    w.icrLatch = (if w.tod = c.alarm then c.icrLatch ||| 4#5 else c.icrLatch)) ∧
  (∀ s : State, (todInc ⟨0x09#8, 0x59#8, 0x59#8, 0x11#8⟩ s).1 = ⟨0x00#8, 0x00#8, 0x00#8, 0x92#8⟩)

/-- The clock's registers (R526, R553). Reading hours takes a snapshot unless one is held and answers from it; while it is held
minutes, seconds and tenths answer from it, else from the clock; reading tenths releases it. A write is masked, and goes to
the alarm when CRB bit 7 is set, leaving the run state; else to the clock, which a write of hours stops and a write of tenths
starts. -/
def Obligations.ClockReadsFreezeAndWritesStartOrStop : Prop :=
  (∀ (id : CiaId) (s : State),
    let c := s.cia id
    let shown := if c.todFrozen then c.todSnap else c.tod
    (ciaRead id 0xB#4 s).1 = shown.hr ∧
    (ciaRead id 0xB#4 s).2 = s.setCia id { c with todSnap := if c.todFrozen then c.todSnap else c.tod, todFrozen := true } ∧
    ciaRead id 0xA#4 s = (shown.min, s) ∧ ciaRead id 0x9#4 s = (shown.sec, s) ∧
    (ciaRead id 0x8#4 s).1 = shown.t10 ∧ (ciaRead id 0x8#4 s).2 = s.setCia id { c with todFrozen := false }) ∧
  (∀ (c : Cia) (v : Byte),
    (c.crb.getLsbD 7 = true →
      c.write 0x8#4 v = { c with alarm := { c.alarm with t10 := v &&& 0x0F#8 } } ∧
      c.write 0x9#4 v = { c with alarm := { c.alarm with sec := v &&& 0x7F#8 } } ∧
      c.write 0xA#4 v = { c with alarm := { c.alarm with min := v &&& 0x7F#8 } } ∧
      c.write 0xB#4 v = { c with alarm := { c.alarm with hr := v &&& 0x9F#8 } }) ∧
    (c.crb.getLsbD 7 = false →
      c.write 0x8#4 v = { c with tod := { c.tod with t10 := v &&& 0x0F#8 }, todRunning := true } ∧
      c.write 0x9#4 v = { c with tod := { c.tod with sec := v &&& 0x7F#8 } } ∧
      c.write 0xA#4 v = { c with tod := { c.tod with min := v &&& 0x7F#8 } } ∧
      c.write 0xB#4 v = { c with tod := { c.tod with hr := v &&& 0x9F#8 }, todRunning := false }))

/-! The sound engine. -/

/-- The sound chip's window (R701, R702, R705): a write stores its byte in the register the map gives for the offset, and in no
other, and changes nothing else; register 0x1C reads 0; every read leaves the engine as it was; and by the default map the
offset's low five bits name a register of instance 0. -/
def Obligations.SoundRegistersStoreAndDoNotReadBack : Prop :=
  ∀ (s : State) (a : Word) (v : Byte), 0xD400 ≤ a.toNat → a.toNat ≤ 0xD7FF → readRoute s.visible a = .io →
    let o := loByte a
    let g := s.sidTarget o
    let t := busWrite a v s
    t = { s with sid := t.sid } ∧
    (∀ k r, (t.sid.chip k).regs.read r = if k = g.chip ∧ r = g.reg.toNat then v else (s.sid.chip k).regs.read r) ∧
    (∀ k, t.sid.chip k = { s.sid.chip k with regs := (t.sid.chip k).regs }) ∧ t.sid.sampleAcc = s.sid.sampleAcc ∧
    t.sid.ring = s.sid.ring ∧
    (g.reg = 0x1C#5 → busRead a s = (0x00#8, s)) ∧ (busRead a s).2.sid = s.sid ∧
    (s.cfg.sidMap = [] → g.chip = 0 ∧ g.reg.toNat = a.toNat % 32)

/-- A release from full volume (R722): from `env` 255 with the exponential counter at 0 and its period at 1, a voice in Release is
at 0 with the hold latch set after exactly 756 rate ticks, and stays there at every later one. -/
def Obligations.ReleaseReachesZeroAfter756Ticks : Prop :=
  ∀ (v : Voice) (r : VoiceRegs), v.env = 0xFF#8 → v.adsr = .release → v.holdZero = false → v.expCounter = 0 →
    v.expPeriod = .p1 →
    let after (n : Nat) : Voice := (fun w : Voice => w.rateTick r)^[n] v
    (after 755).env ≠ 0x00#8 ∧
    ∀ n, 756 ≤ n → (after n).env = 0x00#8 ∧ (after n).holdZero = true

/-- Lines of sound and samples (R720, R745): a line of sound touches nothing but the engine and none of its registers; a frame
is due exactly when the accumulator reaches `CPU_HZ`, and a ring that a frame fills is handed over whole and emptied. That the
ring is full at its size in frames is the model's reading (notes/assumptions/20.md). -/
def Obligations.SamplesAndRingBuffer : Prop :=
  (∀ s : State, ∃ d : Sid, soundLine s = { s with sid := d } ∧ ∀ k, (d.chip k).regs = (s.sid.chip k).regs) ∧
  (∀ (d : Sid) (hz : Nat),
    (d.sampleAcc + Config.sampleRate < hz →
      (d.cycle hz).2 = none ∧ (d.cycle hz).1.sampleAcc = d.sampleAcc + Config.sampleRate ∧ (d.cycle hz).1.ring = d.ring) ∧
    (hz ≤ d.sampleAcc + Config.sampleRate →
      (d.cycle hz).1.sampleAcc = d.sampleAcc + Config.sampleRate - hz ∧
      ∃ frame : List Int,
        (d.ring.length + 1 < Config.ringSamples → (d.cycle hz).2 = none ∧ (d.cycle hz).1.ring = d.ring ++ [frame]) ∧
        (d.ring.length + 1 = Config.ringSamples →
          (d.cycle hz).2 = some (d.ring ++ [frame]) ∧ (d.cycle hz).1.ring = [])))

/-! The line loop, reset and the host. -/

/-- The actions of the line loop (R440, R442): CPU steps while the line's cycles are below the batch's target, a timer check
after each batch, then the line drawn, then its sound; a check gives both controllers the cycles since the last one and restarts
that count. One action a step is the model's choice (notes/assumptions/8.md). -/
def Obligations.LineLoopOrdersItsActions : Prop :=
  ∀ s : State, AtCore s →
    (let checked : State :=
      { s with cia1 := s.cia1.advance s.sinceCheck, cia2 := s.cia2.advance s.sinceCheck, sinceCheck := 0 }
     (∀ budget, s.phase = .firstBatch budget →
      (s.lineCycles < s.cfg.ciaSplit → step s = cpuStep s) ∧
      (s.cfg.ciaSplit ≤ s.lineCycles → step s = .next { checked with phase := .lastBatch budget })) ∧
     (∀ budget, s.phase = .lastBatch budget →
      (s.lineCycles < budget → step s = cpuStep s) ∧
      (budget ≤ s.lineCycles → step s = .next { checked with phase := .draw })) ∧
     (s.phase = .draw → step s = .next { drawRasterline s with phase := .sound }) ∧
     (s.phase = .sound → step s = .next { soundLine s with phase := .lineStart }))

/-- What the spec states of the state after reset (R46 to R49, R52, R54, R560, R750, R800, R803): I set, not halted, the NMI
latch open, the counters at 0, the bank byte 0x37, the video chip, the timer controllers and the sound engine at their values,
and the line loop before its first line. That the loop stands before its first line with no call running is the model's reading
(notes/assumptions/16.md). -/
def Obligations.ResetValues : Prop :=
  let s := State.reset
  s.p.i = true ∧ s.halted = false ∧ s.nmiAck = true ∧ s.lineCycles = 0 ∧ s.sinceCheck = 0 ∧ s.bankByte = 0x37#8 ∧
  s.phase = .lineStart ∧ s.inject = none ∧
  (∀ i, s.vic.reg i = 0x00#8) ∧ s.vic.raster = 0 ∧ s.vic.compare = 0 ∧ s.vic.latch = 0 ∧ s.vic.enable = 0 ∧
  s.vic.collSS = 0 ∧ s.vic.collSD = 0 ∧
  (∀ id,
    let c := s.cia id
    c.ta = 0xFFFF#16 ∧ c.tb = 0xFFFF#16 ∧ c.la = 0xFFFF#16 ∧ c.lb = 0xFFFF#16 ∧ c.cra = 0 ∧ c.crb = 0 ∧ c.icrLatch = 0 ∧
    c.icrMask = 0 ∧ c.icrFlag = false ∧ c.pra = 0 ∧ c.prb = 0 ∧ c.ddra = 0 ∧ c.ddrb = 0 ∧ c.sdr = 0 ∧ c.shiftCount = 0 ∧
    c.pb6 = false ∧ c.pb7 = false ∧ c.tod = ⟨0x00#8, 0x00#8, 0x00#8, 0x01#8⟩ ∧ c.alarm = ⟨0, 0, 0, 0⟩ ∧
    c.todRunning = false ∧ c.todFrozen = false ∧ c.todSnap = c.tod) ∧
  (∀ k,
    let c := s.sid.chip k
    (∀ r, c.regs.read r = 0x00#8) ∧ c.lp = 0 ∧ c.bp = 0 ∧
    ∀ v ∈ [c.voice0, c.voice1, c.voice2],
      v.acc = 0 ∧ v.lfsr = 0x7FFFF8#23 ∧ v.env = 0 ∧ v.adsr = .release ∧ v.holdZero = true ∧ v.rateCounter = 0 ∧
      v.expCounter = 0 ∧ v.expPeriod = .p1 ∧ v.prevGate = false ∧ v.skipOne = false ∧ v.prevWave = 0 ∧ v.prevMsb = false ∧
      v.prevBit19 = false) ∧
  s.sid.sampleAcc = 0 ∧ s.sid.ring = []

/-- The host's reset (R800 to R803): RAM, colour memory and the parameters, the ROM images among them, are kept; PC is the word
at 0xFFFC, read with the bank byte already at its reset value; I is set; the halt, the counters, the devices and the loop start
over. What the spec leaves to draws is whatever the draws give. That the line loop starts over and a running call is dropped is
the model's reading (notes/assumptions/16.md). -/
def Obligations.HostResetKeepsMemoryAndReadsTheVector : Prop :=
  ∀ (d : ResetDraws) (s : State), s.cfg.bankTable = BankTable.standard → s.cfg.resetBankByte = 0x37#8 →
    let t := resetWith d s
    t.ram = s.ram ∧ t.color = s.color ∧ t.cfg = s.cfg ∧
    t.pc = wordOf (Memory.read (w := 8) s.cfg.kernalRom 0x1FFC) (Memory.read (w := 8) s.cfg.kernalRom 0x1FFD) ∧
    t.p.i = true ∧ t.halted = false ∧ t.nmiAck = true ∧ t.lineCycles = 0 ∧ t.sinceCheck = 0 ∧ t.bankByte = 0x37#8 ∧
    t.vic = Vic.reset ∧ t.cia1 = Cia.reset ∧ t.cia2 = Cia.reset ∧ t.sid = Sid.reset ∧ t.phase = .lineStart ∧
    t.inject = none

/-- The host's acts on registers and memory (R461, R463 to R465): at every place of the line loop, setting PC changes PC alone; an image of two
bytes or more writes its payload to RAM from its load address on, modulo 0x10000, and a shorter one changes nothing; a save
changes nothing and gives the start address, low byte first, then the RAM bytes from it up to the end address, none when the end
is not above the start, both addresses the words of RAM at the two pointers. The host's plan is the model's
(notes/assumptions/9.md), and so is a save's image as a function of the state (notes/assumptions/12.md). -/
def Obligations.HostActsTouchPCOrRam : Prop :=
  ∀ (s : State) (rest : List HostTurn), s.halted = false → s.inject = none →
    (∀ addr, s.hostPlan = .host (.setPC addr) :: rest → step s = .next { s with pc := addr, hostPlan := rest }) ∧
    (∀ image, image.length < 2 → s.hostPlan = .host (.loadImage image) :: rest → step s = .next { s with hostPlan := rest }) ∧
    (∀ lo hi payload, s.hostPlan = .host (.loadImage (lo :: hi :: payload)) :: rest → payload.length ≤ 0x10000 →
      ∃ t, step s = .next t ∧ t = { s with ram := t.ram, hostPlan := rest } ∧
        (∀ k, (hk : k < payload.length) → t.ram.read (wordOf lo hi + BitVec.ofNat 16 k).toNat = payload[k]) ∧
        (∀ a : Word, (∀ k, k < payload.length → a ≠ wordOf lo hi + BitVec.ofNat 16 k) →
          t.ram.read a.toNat = s.ram.read a.toNat)) ∧
    (s.hostPlan = .host .saveImage :: rest →
      step s = .next { s with hostPlan := rest } ∧
      (let word (ptr : Word) : Nat := (s.ram.read ptr.toNat).toNat + 256 * (s.ram.read (ptr + 1#16).toNat).toNat
       let start := word s.cfg.saveStartPtr
       let stop := word s.cfg.saveEndPtr
       ∃ payload : List Byte,
        deliveries s = [.image (BitVec.ofNat 8 (start % 256) :: BitVec.ofNat 8 (start / 256) :: payload)] ∧
        payload.length = (if stop ≤ start then 0 else stop - start) ∧
        ∀ k, (hk : k < payload.length) → payload[k] = s.ram.read (start + k)))

/-- An injected subroutine (R462). Its start saves the registers, sets A, X, Y and PC, pushes PC - 1, and leaves everything else.
While it runs a step is the fetched instruction and nothing else: no interrupt is taken, and the cycle counts stay as they were;
at an RTS that brings SP back to the saved value every register and flag is restored over the result. One instruction a step is
the model's choice (notes/assumptions/11.md). -/
def Obligations.InjectedSubroutineRestoresRegisters : Prop :=
  (∀ (s : State) (rest : List HostTurn) (addr : Word) (a x y : Byte), s.halted = false → s.inject = none →
    s.hostPlan = .host (.inject addr a x y) :: rest →
    ∃ t, step s = .next t ∧ t.a = a ∧ t.x = x ∧ t.y = y ∧ t.sp = s.sp - 2#8 ∧ t.p = s.p ∧ t.pc = addr ∧
      t.inject = some { a := s.a, x := s.x, y := s.y, sp := s.sp, p := s.p, pc := s.pc } ∧
      t.ram.read (stackAddr s.sp).toNat = hiByte (s.pc - 1#16) ∧
      t.ram.read (stackAddr (s.sp - 1#8)).toNat = loByte (s.pc - 1#16) ∧
      (∀ k : Nat, k ≠ (stackAddr s.sp).toNat → k ≠ (stackAddr (s.sp - 1#8)).toNat → t.ram.read k = s.ram.read k) ∧
      (∀ k, t.color.read k = s.color.read k) ∧ t.bankByte = s.bankByte ∧ SameDevices s t ∧ t.lineCycles = s.lineCycles ∧
      t.sinceCheck = s.sinceCheck ∧ t.phase = s.phase ∧ t.hostPlan = rest) ∧
  (∀ (s : State) (saved : Saved), s.halted = false → s.inject = some saved →
    ∃ u, exec (fetch s).1 (fetch s).2 = .next u ∧ u.phase = s.phase ∧ u.inject = some saved ∧ u.hostPlan = s.hostPlan ∧
      (let w : State := { u with lineCycles := s.lineCycles, sinceCheck := s.sinceCheck }
       ((fetch s).1 = .rts → (fetch s).2.sp + 2#8 = saved.sp →
        step s = .next
          { w with
            a := saved.a, x := saved.x, y := saved.y, sp := saved.sp, p := saved.p, pc := saved.pc, inject := none }) ∧
       ((fetch s).1 ≠ .rts ∨ (fetch s).2.sp + 2#8 ≠ saved.sp → step s = .next w)))

/-! Invariants of every step. -/

/-- Every step keeps memory and the register arrays in canonical form, within their sizes (R50, R53, R54, R56). -/
def Obligations.EveryStepKeepsMemoryCanonical : Prop :=
  ∀ s t : State, MemoryInv s → step s = .next t → MemoryInv t

/-- Every step keeps the devices' invariants: the raster counter in 0..311 and the output arrays in their sizes, the latch bits no
source drives and the force-load strobes clear, the compare value and the composites what their registers give, the clock fields
within their bits, the envelope's hold latch and the noise register, and a ring that a full block has left (R54, R503, R504,
R524, R530, R616, R623, R711, R714, R745). A ring emptied at RING_SAMPLES frames or more is the model's reading
(notes/assumptions/20.md), and so is a draw for an illegal clock field kept within the field's bits (notes/assumptions/18.md). -/
def Obligations.EveryStepKeepsDeviceInvariants : Prop :=
  (∀ s t : State, VicInv s.vic → step s = .next t → VicInv t.vic) ∧
  (∀ s t : State, CiaInv s.cia1 → CiaInv s.cia2 → step s = .next t → CiaInv t.cia1 ∧ CiaInv t.cia2) ∧
  (∀ s t : State, SidInv s.sid → step s = .next t → SidInv t.sid)

/-- The invariants hold right after reset. The bound on the ring is the model's reading (notes/assumptions/20.md). -/
def Obligations.InvariantsHoldAtReset : Prop :=
  MemoryInv State.reset ∧ VicInv State.reset.vic ∧ CiaInv State.reset.cia1 ∧ CiaInv State.reset.cia2 ∧ SidInv State.reset.sid

/-- No step writes a ROM image, or any other parameter (R51, R57), the core never refuses an instruction, and only a halted
core's step is a fault (R400, R410). That the parameters stand in the state is the model's choice (notes/assumptions/6.md), and
that the fetch of an illegal opcode is a next state and only later steps the fault is its reading (notes/assumptions/13.md). -/
def Obligations.NoStepWritesAParameter : Prop :=
  ∀ s : State, (∀ t, step s = .next t → t.cfg = s.cfg) ∧ (∀ r, step s ≠ .refused r) ∧ (∀ r, step s = .fault r → s.halted = true)
end

