-- ==== Sys2Proof/Laws/Memory.lean ====
section
/-! SUPPORT. The laws of a memory: a read after a write to the same place gives the value written, a write leaves every other
place alone, and every write keeps the canonical form and the size. -/

namespace Sys2Proof.Machine

theorem lookAt_putAt_self {α : Type} (k : Nat) (v : α) (l : List (Nat × α)) : lookAt k (putAt k v l) = some v := by
  induction l with
  | nil => simp [putAt, lookAt]
  | cons p rest ih =>
    obtain ⟨k', v'⟩ := p
    simp only [putAt]
    split
    · simp [lookAt]
    · split
      · simp [lookAt]
      · rename_i _ h
        simp [lookAt, Ne.symm h, ih]

theorem lookAt_putAt_ne {α : Type} {k k' : Nat} (h : k' ≠ k) (v : α) (l : List (Nat × α)) :
    lookAt k' (putAt k v l) = lookAt k' l := by
  induction l with
  | nil => simp [putAt, lookAt, Ne.symm h]
  | cons p rest ih =>
    obtain ⟨j, w⟩ := p
    simp only [putAt]
    split
    · simp [lookAt, Ne.symm h]
    · split
      · rename_i _ hj
        subst hj
        simp [lookAt, Ne.symm h]
      · simp only [lookAt, ih]

theorem lookAt_dropAt_self {α : Type} (k : Nat) (l : List (Nat × α)) : lookAt k (dropAt k l) = none := by
  induction l with
  | nil => rfl
  | cons p rest ih =>
    obtain ⟨j, w⟩ := p
    simp only [dropAt]
    split
    · exact ih
    · rename_i h
      simp [lookAt, h, ih]

theorem lookAt_dropAt_ne {α : Type} {k k' : Nat} (h : k' ≠ k) (l : List (Nat × α)) :
    lookAt k' (dropAt k l) = lookAt k' l := by
  induction l with
  | nil => rfl
  | cons p rest ih =>
    obtain ⟨j, w⟩ := p
    simp only [dropAt]
    split
    · rename_i hj
      subst hj
      simp [lookAt, Ne.symm h, ih]
    · simp only [lookAt, ih]

/-- A read after a write to the same cell gives the value written. -/
@[simp] theorem Memory.read_write_self {w : Nat} (m : Memory w) (a : Nat) (v : BitVec w) : (m.write a v).read a = v := by
  unfold Memory.write Memory.read
  split
  · rename_i h
    simp [lookAt_dropAt_self, h]
  · simp [lookAt_putAt_self]

/-- A write leaves every other cell alone. -/
theorem Memory.read_write_ne {w : Nat} (m : Memory w) {a b : Nat} (h : b ≠ a) (v : BitVec w) :
    (m.write a v).read b = m.read b := by
  unfold Memory.write Memory.read
  split
  · rw [lookAt_dropAt_ne h]
  · rw [lookAt_putAt_ne h]

/-- A read after a write, whichever cell is read. -/
theorem Memory.read_write {w : Nat} (m : Memory w) (a b : Nat) (v : BitVec w) :
    (m.write a v).read b = if b = a then v else m.read b := by
  split
  · rename_i h
    rw [h, Memory.read_write_self]
  · rename_i h
    rw [Memory.read_write_ne m h]

theorem mem_dropAt {α : Type} {k : Nat} {l : List (Nat × α)} {p : Nat × α} (h : p ∈ dropAt k l) : p ∈ l := by
  induction l with
  | nil => exact h
  | cons q rest ih =>
    obtain ⟨j, w⟩ := q
    simp only [dropAt] at h
    split at h
    · exact List.mem_cons_of_mem _ (ih h)
    · rcases List.mem_cons.mp h with rfl | h
      · exact List.mem_cons_self
      · exact List.mem_cons_of_mem _ (ih h)

theorem mem_putAt {α : Type} {k : Nat} {v : α} {l : List (Nat × α)} {p : Nat × α} (h : p ∈ putAt k v l) :
    p = (k, v) ∨ p ∈ l := by
  induction l with
  | nil => exact .inl (by simpa [putAt] using h)
  | cons q rest ih =>
    obtain ⟨j, w⟩ := q
    simp only [putAt] at h
    split at h
    · exact List.mem_cons.mp h
    · split at h
      · rcases List.mem_cons.mp h with rfl | h
        · exact .inl rfl
        · exact .inr (List.mem_cons_of_mem _ h)
      · rcases List.mem_cons.mp h with rfl | h
        · exact .inr List.mem_cons_self
        · exact (ih h).imp_right (List.mem_cons_of_mem _)

theorem dropAt_rising {α : Type} (k : Nat) {l : List (Nat × α)} (h : l.Pairwise (fun p q => p.1 < q.1)) :
    (dropAt k l).Pairwise (fun p q => p.1 < q.1) := by
  induction l with
  | nil => exact h
  | cons p rest ih =>
    obtain ⟨j, w⟩ := p
    rw [List.pairwise_cons] at h
    simp only [dropAt]
    split
    · exact ih h.2
    · exact List.pairwise_cons.mpr ⟨fun q hq => h.1 q (mem_dropAt hq), ih h.2⟩

theorem putAt_rising {α : Type} (k : Nat) (v : α) {l : List (Nat × α)} (h : l.Pairwise (fun p q => p.1 < q.1)) :
    (putAt k v l).Pairwise (fun p q => p.1 < q.1) := by
  induction l with
  | nil => exact List.pairwise_singleton _ _
  | cons p rest ih =>
    obtain ⟨j, w⟩ := p
    simp only [putAt]
    split
    · rename_i hk
      refine List.pairwise_cons.mpr ⟨fun q hq => ?_, h⟩
      rcases List.mem_cons.mp hq with rfl | hq
      · exact hk
      · exact Nat.lt_trans hk ((List.pairwise_cons.mp h).1 q hq)
    · rw [List.pairwise_cons] at h
      split
      · rename_i _ hk
        subst hk
        exact List.pairwise_cons.mpr h
      · rename_i h1 h2
        refine List.pairwise_cons.mpr ⟨fun q hq => ?_, ih h.2⟩
        rcases mem_putAt hq with rfl | hq
        · show j < k
          omega
        · exact h.1 q hq

/-- A write keeps the canonical form. -/
theorem Memory.wf_write {w : Nat} {m : Memory w} (h : m.wf) (a : Nat) (v : BitVec w) : (m.write a v).wf := by
  unfold Memory.write
  split
  · exact ⟨dropAt_rising a h.1, fun p hp => h.2 p (mem_dropAt hp)⟩
  · rename_i hv
    refine ⟨putAt_rising a v h.1, fun p hp => ?_⟩
    rcases mem_putAt hp with rfl | hp
    · exact hv
    · exact h.2 p hp

/-- A write within the size keeps the size. -/
theorem Memory.within_write {w size : Nat} {m : Memory w} (h : m.within size) {a : Nat} (ha : a < size) (v : BitVec w) :
    (m.write a v).within size := by
  unfold Memory.write
  split
  · exact fun p hp => h p (mem_dropAt hp)
  · intro p hp
    rcases mem_putAt hp with rfl | hp
    · exact ha
    · exact h p hp

/-- A canonical memory is known by what it reads: two of them that read alike everywhere are equal. -/
theorem Memory.ext_of_wf {w : Nat} {m m' : Memory w} (h : m.wf) (h' : m'.wf) (hr : ∀ a, m.read a = m'.read a) : m = m' := by
  induction m generalizing m' with
  | nil =>
    cases m' with
    | nil => rfl
    | cons p rest =>
      have := hr p.1
      exact absurd this.symm (by simpa [Memory.read, lookAt] using h'.2 p List.mem_cons_self)
  | cons p rest ih =>
    have look : ∀ {l : Memory w} {k : Nat}, (∀ q ∈ l, k < q.1) → lookAt k l = none := by
      intro l k hl
      induction l with
      | nil => rfl
      | cons q r ihl =>
        have := hl q List.mem_cons_self
        simp only [lookAt, if_neg (Nat.ne_of_gt this)]
        exact ihl fun x hx => hl x (List.mem_cons_of_mem _ hx)
    cases m' with
    | nil =>
      have := hr p.1
      exact absurd this (by simpa [Memory.read, lookAt] using h.2 p List.mem_cons_self)
    | cons q rest' =>
      obtain ⟨k, v⟩ := p
      obtain ⟨k', v'⟩ := q
      have hp := List.pairwise_cons.mp h.1
      have hq := List.pairwise_cons.mp h'.1
      have hv : v ≠ Memory.unlisted w := h.2 _ List.mem_cons_self
      have hv' : v' ≠ Memory.unlisted w := h'.2 _ List.mem_cons_self
      have hk : k = k' := by
        rcases Nat.lt_trichotomy k k' with hlt | heq | hgt
        · have := hr k
          have hn : lookAt k ((k', v') :: rest') = none :=
            look (l := (k', v') :: rest') fun x hx => by
              rcases List.mem_cons.mp hx with rfl | hx
              · exact hlt
              · exact Nat.lt_trans hlt (hq.1 x hx)
          rw [Memory.read, Memory.read, hn] at this
          exact absurd (by simpa [lookAt] using this) hv
        · exact heq
        · have := hr k'
          have hn : lookAt k' ((k, v) :: rest) = none :=
            look (l := (k, v) :: rest) fun x hx => by
              rcases List.mem_cons.mp hx with rfl | hx
              · exact hgt
              · exact Nat.lt_trans hgt (hp.1 x hx)
          rw [Memory.read, Memory.read, hn] at this
          exact absurd (by simpa [lookAt] using this.symm) hv'
      subst hk
      have hvv : v = v' := by simpa [Memory.read, lookAt] using hr k
      subst hvv
      have : rest = rest' := by
        refine ih ⟨hp.2, fun x hx => h.2 x (List.mem_cons_of_mem _ hx)⟩
          ⟨hq.2, fun x hx => h'.2 x (List.mem_cons_of_mem _ hx)⟩ fun a => ?_
        by_cases ha : a = k
        · subst ha
          rw [Memory.read, Memory.read, look (l := rest) hp.1, look (l := rest') hq.1]
        · have := hr a
          simpa [Memory.read, lookAt, Ne.symm ha] using this
      rw [this]

end Sys2Proof.Machine
end

