-- ==== Sys2Proof/Laws/State.lean ====
section
/-! SUPPORT. One lemma per field for each named update of the state: what the update leaves of it. -/

namespace Sys2Proof.Machine

@[simp] theorem State.setA_a (s : State) (v : Byte) : (s.setA v).a = v := rfl
@[simp] theorem State.setA_x (s : State) (v : Byte) : (s.setA v).x = s.x := rfl
@[simp] theorem State.setA_y (s : State) (v : Byte) : (s.setA v).y = s.y := rfl
@[simp] theorem State.setA_sp (s : State) (v : Byte) : (s.setA v).sp = s.sp := rfl
@[simp] theorem State.setA_pc (s : State) (v : Byte) : (s.setA v).pc = s.pc := rfl
@[simp] theorem State.setA_p (s : State) (v : Byte) : (s.setA v).p = s.p := rfl
@[simp] theorem State.setA_halted (s : State) (v : Byte) : (s.setA v).halted = s.halted := rfl
@[simp] theorem State.setA_haltPC (s : State) (v : Byte) : (s.setA v).haltPC = s.haltPC := rfl
@[simp] theorem State.setA_haltOp (s : State) (v : Byte) : (s.setA v).haltOp = s.haltOp := rfl
@[simp] theorem State.setA_nmiAck (s : State) (v : Byte) : (s.setA v).nmiAck = s.nmiAck := rfl
@[simp] theorem State.setA_lineCycles (s : State) (v : Byte) : (s.setA v).lineCycles = s.lineCycles := rfl
@[simp] theorem State.setA_sinceCheck (s : State) (v : Byte) : (s.setA v).sinceCheck = s.sinceCheck := rfl
@[simp] theorem State.setA_phase (s : State) (v : Byte) : (s.setA v).phase = s.phase := rfl
@[simp] theorem State.setA_ram (s : State) (v : Byte) : (s.setA v).ram = s.ram := rfl
@[simp] theorem State.setA_bankByte (s : State) (v : Byte) : (s.setA v).bankByte = s.bankByte := rfl
@[simp] theorem State.setA_color (s : State) (v : Byte) : (s.setA v).color = s.color := rfl
@[simp] theorem State.setA_vic (s : State) (v : Byte) : (s.setA v).vic = s.vic := rfl
@[simp] theorem State.setA_cia1 (s : State) (v : Byte) : (s.setA v).cia1 = s.cia1 := rfl
@[simp] theorem State.setA_cia2 (s : State) (v : Byte) : (s.setA v).cia2 = s.cia2 := rfl
@[simp] theorem State.setA_sid (s : State) (v : Byte) : (s.setA v).sid = s.sid := rfl
@[simp] theorem State.setA_inject (s : State) (v : Byte) : (s.setA v).inject = s.inject := rfl
@[simp] theorem State.setA_hostPlan (s : State) (v : Byte) : (s.setA v).hostPlan = s.hostPlan := rfl
@[simp] theorem State.setA_draws (s : State) (v : Byte) : (s.setA v).draws = s.draws := rfl
@[simp] theorem State.setA_cfg (s : State) (v : Byte) : (s.setA v).cfg = s.cfg := rfl

@[simp] theorem State.setX_a (s : State) (v : Byte) : (s.setX v).a = s.a := rfl
@[simp] theorem State.setX_x (s : State) (v : Byte) : (s.setX v).x = v := rfl
@[simp] theorem State.setX_y (s : State) (v : Byte) : (s.setX v).y = s.y := rfl
@[simp] theorem State.setX_sp (s : State) (v : Byte) : (s.setX v).sp = s.sp := rfl
@[simp] theorem State.setX_pc (s : State) (v : Byte) : (s.setX v).pc = s.pc := rfl
@[simp] theorem State.setX_p (s : State) (v : Byte) : (s.setX v).p = s.p := rfl
@[simp] theorem State.setX_halted (s : State) (v : Byte) : (s.setX v).halted = s.halted := rfl
@[simp] theorem State.setX_haltPC (s : State) (v : Byte) : (s.setX v).haltPC = s.haltPC := rfl
@[simp] theorem State.setX_haltOp (s : State) (v : Byte) : (s.setX v).haltOp = s.haltOp := rfl
@[simp] theorem State.setX_nmiAck (s : State) (v : Byte) : (s.setX v).nmiAck = s.nmiAck := rfl
@[simp] theorem State.setX_lineCycles (s : State) (v : Byte) : (s.setX v).lineCycles = s.lineCycles := rfl
@[simp] theorem State.setX_sinceCheck (s : State) (v : Byte) : (s.setX v).sinceCheck = s.sinceCheck := rfl
@[simp] theorem State.setX_phase (s : State) (v : Byte) : (s.setX v).phase = s.phase := rfl
@[simp] theorem State.setX_ram (s : State) (v : Byte) : (s.setX v).ram = s.ram := rfl
@[simp] theorem State.setX_bankByte (s : State) (v : Byte) : (s.setX v).bankByte = s.bankByte := rfl
@[simp] theorem State.setX_color (s : State) (v : Byte) : (s.setX v).color = s.color := rfl
@[simp] theorem State.setX_vic (s : State) (v : Byte) : (s.setX v).vic = s.vic := rfl
@[simp] theorem State.setX_cia1 (s : State) (v : Byte) : (s.setX v).cia1 = s.cia1 := rfl
@[simp] theorem State.setX_cia2 (s : State) (v : Byte) : (s.setX v).cia2 = s.cia2 := rfl
@[simp] theorem State.setX_sid (s : State) (v : Byte) : (s.setX v).sid = s.sid := rfl
@[simp] theorem State.setX_inject (s : State) (v : Byte) : (s.setX v).inject = s.inject := rfl
@[simp] theorem State.setX_hostPlan (s : State) (v : Byte) : (s.setX v).hostPlan = s.hostPlan := rfl
@[simp] theorem State.setX_draws (s : State) (v : Byte) : (s.setX v).draws = s.draws := rfl
@[simp] theorem State.setX_cfg (s : State) (v : Byte) : (s.setX v).cfg = s.cfg := rfl

@[simp] theorem State.setY_a (s : State) (v : Byte) : (s.setY v).a = s.a := rfl
@[simp] theorem State.setY_x (s : State) (v : Byte) : (s.setY v).x = s.x := rfl
@[simp] theorem State.setY_y (s : State) (v : Byte) : (s.setY v).y = v := rfl
@[simp] theorem State.setY_sp (s : State) (v : Byte) : (s.setY v).sp = s.sp := rfl
@[simp] theorem State.setY_pc (s : State) (v : Byte) : (s.setY v).pc = s.pc := rfl
@[simp] theorem State.setY_p (s : State) (v : Byte) : (s.setY v).p = s.p := rfl
@[simp] theorem State.setY_halted (s : State) (v : Byte) : (s.setY v).halted = s.halted := rfl
@[simp] theorem State.setY_haltPC (s : State) (v : Byte) : (s.setY v).haltPC = s.haltPC := rfl
@[simp] theorem State.setY_haltOp (s : State) (v : Byte) : (s.setY v).haltOp = s.haltOp := rfl
@[simp] theorem State.setY_nmiAck (s : State) (v : Byte) : (s.setY v).nmiAck = s.nmiAck := rfl
@[simp] theorem State.setY_lineCycles (s : State) (v : Byte) : (s.setY v).lineCycles = s.lineCycles := rfl
@[simp] theorem State.setY_sinceCheck (s : State) (v : Byte) : (s.setY v).sinceCheck = s.sinceCheck := rfl
@[simp] theorem State.setY_phase (s : State) (v : Byte) : (s.setY v).phase = s.phase := rfl
@[simp] theorem State.setY_ram (s : State) (v : Byte) : (s.setY v).ram = s.ram := rfl
@[simp] theorem State.setY_bankByte (s : State) (v : Byte) : (s.setY v).bankByte = s.bankByte := rfl
@[simp] theorem State.setY_color (s : State) (v : Byte) : (s.setY v).color = s.color := rfl
@[simp] theorem State.setY_vic (s : State) (v : Byte) : (s.setY v).vic = s.vic := rfl
@[simp] theorem State.setY_cia1 (s : State) (v : Byte) : (s.setY v).cia1 = s.cia1 := rfl
@[simp] theorem State.setY_cia2 (s : State) (v : Byte) : (s.setY v).cia2 = s.cia2 := rfl
@[simp] theorem State.setY_sid (s : State) (v : Byte) : (s.setY v).sid = s.sid := rfl
@[simp] theorem State.setY_inject (s : State) (v : Byte) : (s.setY v).inject = s.inject := rfl
@[simp] theorem State.setY_hostPlan (s : State) (v : Byte) : (s.setY v).hostPlan = s.hostPlan := rfl
@[simp] theorem State.setY_draws (s : State) (v : Byte) : (s.setY v).draws = s.draws := rfl
@[simp] theorem State.setY_cfg (s : State) (v : Byte) : (s.setY v).cfg = s.cfg := rfl

@[simp] theorem State.setSP_a (s : State) (v : Byte) : (s.setSP v).a = s.a := rfl
@[simp] theorem State.setSP_x (s : State) (v : Byte) : (s.setSP v).x = s.x := rfl
@[simp] theorem State.setSP_y (s : State) (v : Byte) : (s.setSP v).y = s.y := rfl
@[simp] theorem State.setSP_sp (s : State) (v : Byte) : (s.setSP v).sp = v := rfl
@[simp] theorem State.setSP_pc (s : State) (v : Byte) : (s.setSP v).pc = s.pc := rfl
@[simp] theorem State.setSP_p (s : State) (v : Byte) : (s.setSP v).p = s.p := rfl
@[simp] theorem State.setSP_halted (s : State) (v : Byte) : (s.setSP v).halted = s.halted := rfl
@[simp] theorem State.setSP_haltPC (s : State) (v : Byte) : (s.setSP v).haltPC = s.haltPC := rfl
@[simp] theorem State.setSP_haltOp (s : State) (v : Byte) : (s.setSP v).haltOp = s.haltOp := rfl
@[simp] theorem State.setSP_nmiAck (s : State) (v : Byte) : (s.setSP v).nmiAck = s.nmiAck := rfl
@[simp] theorem State.setSP_lineCycles (s : State) (v : Byte) : (s.setSP v).lineCycles = s.lineCycles := rfl
@[simp] theorem State.setSP_sinceCheck (s : State) (v : Byte) : (s.setSP v).sinceCheck = s.sinceCheck := rfl
@[simp] theorem State.setSP_phase (s : State) (v : Byte) : (s.setSP v).phase = s.phase := rfl
@[simp] theorem State.setSP_ram (s : State) (v : Byte) : (s.setSP v).ram = s.ram := rfl
@[simp] theorem State.setSP_bankByte (s : State) (v : Byte) : (s.setSP v).bankByte = s.bankByte := rfl
@[simp] theorem State.setSP_color (s : State) (v : Byte) : (s.setSP v).color = s.color := rfl
@[simp] theorem State.setSP_vic (s : State) (v : Byte) : (s.setSP v).vic = s.vic := rfl
@[simp] theorem State.setSP_cia1 (s : State) (v : Byte) : (s.setSP v).cia1 = s.cia1 := rfl
@[simp] theorem State.setSP_cia2 (s : State) (v : Byte) : (s.setSP v).cia2 = s.cia2 := rfl
@[simp] theorem State.setSP_sid (s : State) (v : Byte) : (s.setSP v).sid = s.sid := rfl
@[simp] theorem State.setSP_inject (s : State) (v : Byte) : (s.setSP v).inject = s.inject := rfl
@[simp] theorem State.setSP_hostPlan (s : State) (v : Byte) : (s.setSP v).hostPlan = s.hostPlan := rfl
@[simp] theorem State.setSP_draws (s : State) (v : Byte) : (s.setSP v).draws = s.draws := rfl
@[simp] theorem State.setSP_cfg (s : State) (v : Byte) : (s.setSP v).cfg = s.cfg := rfl

@[simp] theorem State.setPC_a (s : State) (v : Word) : (s.setPC v).a = s.a := rfl
@[simp] theorem State.setPC_x (s : State) (v : Word) : (s.setPC v).x = s.x := rfl
@[simp] theorem State.setPC_y (s : State) (v : Word) : (s.setPC v).y = s.y := rfl
@[simp] theorem State.setPC_sp (s : State) (v : Word) : (s.setPC v).sp = s.sp := rfl
@[simp] theorem State.setPC_pc (s : State) (v : Word) : (s.setPC v).pc = v := rfl
@[simp] theorem State.setPC_p (s : State) (v : Word) : (s.setPC v).p = s.p := rfl
@[simp] theorem State.setPC_halted (s : State) (v : Word) : (s.setPC v).halted = s.halted := rfl
@[simp] theorem State.setPC_haltPC (s : State) (v : Word) : (s.setPC v).haltPC = s.haltPC := rfl
@[simp] theorem State.setPC_haltOp (s : State) (v : Word) : (s.setPC v).haltOp = s.haltOp := rfl
@[simp] theorem State.setPC_nmiAck (s : State) (v : Word) : (s.setPC v).nmiAck = s.nmiAck := rfl
@[simp] theorem State.setPC_lineCycles (s : State) (v : Word) : (s.setPC v).lineCycles = s.lineCycles := rfl
@[simp] theorem State.setPC_sinceCheck (s : State) (v : Word) : (s.setPC v).sinceCheck = s.sinceCheck := rfl
@[simp] theorem State.setPC_phase (s : State) (v : Word) : (s.setPC v).phase = s.phase := rfl
@[simp] theorem State.setPC_ram (s : State) (v : Word) : (s.setPC v).ram = s.ram := rfl
@[simp] theorem State.setPC_bankByte (s : State) (v : Word) : (s.setPC v).bankByte = s.bankByte := rfl
@[simp] theorem State.setPC_color (s : State) (v : Word) : (s.setPC v).color = s.color := rfl
@[simp] theorem State.setPC_vic (s : State) (v : Word) : (s.setPC v).vic = s.vic := rfl
@[simp] theorem State.setPC_cia1 (s : State) (v : Word) : (s.setPC v).cia1 = s.cia1 := rfl
@[simp] theorem State.setPC_cia2 (s : State) (v : Word) : (s.setPC v).cia2 = s.cia2 := rfl
@[simp] theorem State.setPC_sid (s : State) (v : Word) : (s.setPC v).sid = s.sid := rfl
@[simp] theorem State.setPC_inject (s : State) (v : Word) : (s.setPC v).inject = s.inject := rfl
@[simp] theorem State.setPC_hostPlan (s : State) (v : Word) : (s.setPC v).hostPlan = s.hostPlan := rfl
@[simp] theorem State.setPC_draws (s : State) (v : Word) : (s.setPC v).draws = s.draws := rfl
@[simp] theorem State.setPC_cfg (s : State) (v : Word) : (s.setPC v).cfg = s.cfg := rfl

@[simp] theorem State.setP_a (s : State) (v : Status) : (s.setP v).a = s.a := rfl
@[simp] theorem State.setP_x (s : State) (v : Status) : (s.setP v).x = s.x := rfl
@[simp] theorem State.setP_y (s : State) (v : Status) : (s.setP v).y = s.y := rfl
@[simp] theorem State.setP_sp (s : State) (v : Status) : (s.setP v).sp = s.sp := rfl
@[simp] theorem State.setP_pc (s : State) (v : Status) : (s.setP v).pc = s.pc := rfl
@[simp] theorem State.setP_p (s : State) (v : Status) : (s.setP v).p = v := rfl
@[simp] theorem State.setP_halted (s : State) (v : Status) : (s.setP v).halted = s.halted := rfl
@[simp] theorem State.setP_haltPC (s : State) (v : Status) : (s.setP v).haltPC = s.haltPC := rfl
@[simp] theorem State.setP_haltOp (s : State) (v : Status) : (s.setP v).haltOp = s.haltOp := rfl
@[simp] theorem State.setP_nmiAck (s : State) (v : Status) : (s.setP v).nmiAck = s.nmiAck := rfl
@[simp] theorem State.setP_lineCycles (s : State) (v : Status) : (s.setP v).lineCycles = s.lineCycles := rfl
@[simp] theorem State.setP_sinceCheck (s : State) (v : Status) : (s.setP v).sinceCheck = s.sinceCheck := rfl
@[simp] theorem State.setP_phase (s : State) (v : Status) : (s.setP v).phase = s.phase := rfl
@[simp] theorem State.setP_ram (s : State) (v : Status) : (s.setP v).ram = s.ram := rfl
@[simp] theorem State.setP_bankByte (s : State) (v : Status) : (s.setP v).bankByte = s.bankByte := rfl
@[simp] theorem State.setP_color (s : State) (v : Status) : (s.setP v).color = s.color := rfl
@[simp] theorem State.setP_vic (s : State) (v : Status) : (s.setP v).vic = s.vic := rfl
@[simp] theorem State.setP_cia1 (s : State) (v : Status) : (s.setP v).cia1 = s.cia1 := rfl
@[simp] theorem State.setP_cia2 (s : State) (v : Status) : (s.setP v).cia2 = s.cia2 := rfl
@[simp] theorem State.setP_sid (s : State) (v : Status) : (s.setP v).sid = s.sid := rfl
@[simp] theorem State.setP_inject (s : State) (v : Status) : (s.setP v).inject = s.inject := rfl
@[simp] theorem State.setP_hostPlan (s : State) (v : Status) : (s.setP v).hostPlan = s.hostPlan := rfl
@[simp] theorem State.setP_draws (s : State) (v : Status) : (s.setP v).draws = s.draws := rfl
@[simp] theorem State.setP_cfg (s : State) (v : Status) : (s.setP v).cfg = s.cfg := rfl

@[simp] theorem State.advance_a (s : State) (n : Nat) : (s.advance n).a = s.a := rfl
@[simp] theorem State.advance_x (s : State) (n : Nat) : (s.advance n).x = s.x := rfl
@[simp] theorem State.advance_y (s : State) (n : Nat) : (s.advance n).y = s.y := rfl
@[simp] theorem State.advance_sp (s : State) (n : Nat) : (s.advance n).sp = s.sp := rfl
@[simp] theorem State.advance_pc (s : State) (n : Nat) : (s.advance n).pc = s.pc + BitVec.ofNat 16 n := rfl
@[simp] theorem State.advance_p (s : State) (n : Nat) : (s.advance n).p = s.p := rfl
@[simp] theorem State.advance_halted (s : State) (n : Nat) : (s.advance n).halted = s.halted := rfl
@[simp] theorem State.advance_haltPC (s : State) (n : Nat) : (s.advance n).haltPC = s.haltPC := rfl
@[simp] theorem State.advance_haltOp (s : State) (n : Nat) : (s.advance n).haltOp = s.haltOp := rfl
@[simp] theorem State.advance_nmiAck (s : State) (n : Nat) : (s.advance n).nmiAck = s.nmiAck := rfl
@[simp] theorem State.advance_lineCycles (s : State) (n : Nat) : (s.advance n).lineCycles = s.lineCycles := rfl
@[simp] theorem State.advance_sinceCheck (s : State) (n : Nat) : (s.advance n).sinceCheck = s.sinceCheck := rfl
@[simp] theorem State.advance_phase (s : State) (n : Nat) : (s.advance n).phase = s.phase := rfl
@[simp] theorem State.advance_ram (s : State) (n : Nat) : (s.advance n).ram = s.ram := rfl
@[simp] theorem State.advance_bankByte (s : State) (n : Nat) : (s.advance n).bankByte = s.bankByte := rfl
@[simp] theorem State.advance_color (s : State) (n : Nat) : (s.advance n).color = s.color := rfl
@[simp] theorem State.advance_vic (s : State) (n : Nat) : (s.advance n).vic = s.vic := rfl
@[simp] theorem State.advance_cia1 (s : State) (n : Nat) : (s.advance n).cia1 = s.cia1 := rfl
@[simp] theorem State.advance_cia2 (s : State) (n : Nat) : (s.advance n).cia2 = s.cia2 := rfl
@[simp] theorem State.advance_sid (s : State) (n : Nat) : (s.advance n).sid = s.sid := rfl
@[simp] theorem State.advance_inject (s : State) (n : Nat) : (s.advance n).inject = s.inject := rfl
@[simp] theorem State.advance_hostPlan (s : State) (n : Nat) : (s.advance n).hostPlan = s.hostPlan := rfl
@[simp] theorem State.advance_draws (s : State) (n : Nat) : (s.advance n).draws = s.draws := rfl
@[simp] theorem State.advance_cfg (s : State) (n : Nat) : (s.advance n).cfg = s.cfg := rfl

@[simp] theorem State.charge_a (s : State) (n : Nat) : (s.charge n).a = s.a := rfl
@[simp] theorem State.charge_x (s : State) (n : Nat) : (s.charge n).x = s.x := rfl
@[simp] theorem State.charge_y (s : State) (n : Nat) : (s.charge n).y = s.y := rfl
@[simp] theorem State.charge_sp (s : State) (n : Nat) : (s.charge n).sp = s.sp := rfl
@[simp] theorem State.charge_pc (s : State) (n : Nat) : (s.charge n).pc = s.pc := rfl
@[simp] theorem State.charge_p (s : State) (n : Nat) : (s.charge n).p = s.p := rfl
@[simp] theorem State.charge_halted (s : State) (n : Nat) : (s.charge n).halted = s.halted := rfl
@[simp] theorem State.charge_haltPC (s : State) (n : Nat) : (s.charge n).haltPC = s.haltPC := rfl
@[simp] theorem State.charge_haltOp (s : State) (n : Nat) : (s.charge n).haltOp = s.haltOp := rfl
@[simp] theorem State.charge_nmiAck (s : State) (n : Nat) : (s.charge n).nmiAck = s.nmiAck := rfl
@[simp] theorem State.charge_lineCycles (s : State) (n : Nat) : (s.charge n).lineCycles = s.lineCycles + n := rfl
@[simp] theorem State.charge_sinceCheck (s : State) (n : Nat) : (s.charge n).sinceCheck = s.sinceCheck + n := rfl
@[simp] theorem State.charge_phase (s : State) (n : Nat) : (s.charge n).phase = s.phase := rfl
@[simp] theorem State.charge_ram (s : State) (n : Nat) : (s.charge n).ram = s.ram := rfl
@[simp] theorem State.charge_bankByte (s : State) (n : Nat) : (s.charge n).bankByte = s.bankByte := rfl
@[simp] theorem State.charge_color (s : State) (n : Nat) : (s.charge n).color = s.color := rfl
@[simp] theorem State.charge_vic (s : State) (n : Nat) : (s.charge n).vic = s.vic := rfl
@[simp] theorem State.charge_cia1 (s : State) (n : Nat) : (s.charge n).cia1 = s.cia1 := rfl
@[simp] theorem State.charge_cia2 (s : State) (n : Nat) : (s.charge n).cia2 = s.cia2 := rfl
@[simp] theorem State.charge_sid (s : State) (n : Nat) : (s.charge n).sid = s.sid := rfl
@[simp] theorem State.charge_inject (s : State) (n : Nat) : (s.charge n).inject = s.inject := rfl
@[simp] theorem State.charge_hostPlan (s : State) (n : Nat) : (s.charge n).hostPlan = s.hostPlan := rfl
@[simp] theorem State.charge_draws (s : State) (n : Nat) : (s.charge n).draws = s.draws := rfl
@[simp] theorem State.charge_cfg (s : State) (n : Nat) : (s.charge n).cfg = s.cfg := rfl

@[simp] theorem State.setNZ_a (s : State) (v : Byte) : (s.setNZ v).a = s.a := rfl
@[simp] theorem State.setNZ_x (s : State) (v : Byte) : (s.setNZ v).x = s.x := rfl
@[simp] theorem State.setNZ_y (s : State) (v : Byte) : (s.setNZ v).y = s.y := rfl
@[simp] theorem State.setNZ_sp (s : State) (v : Byte) : (s.setNZ v).sp = s.sp := rfl
@[simp] theorem State.setNZ_pc (s : State) (v : Byte) : (s.setNZ v).pc = s.pc := rfl
@[simp] theorem State.setNZ_p (s : State) (v : Byte) : (s.setNZ v).p = s.p.withNZ v := rfl
@[simp] theorem State.setNZ_halted (s : State) (v : Byte) : (s.setNZ v).halted = s.halted := rfl
@[simp] theorem State.setNZ_haltPC (s : State) (v : Byte) : (s.setNZ v).haltPC = s.haltPC := rfl
@[simp] theorem State.setNZ_haltOp (s : State) (v : Byte) : (s.setNZ v).haltOp = s.haltOp := rfl
@[simp] theorem State.setNZ_nmiAck (s : State) (v : Byte) : (s.setNZ v).nmiAck = s.nmiAck := rfl
@[simp] theorem State.setNZ_lineCycles (s : State) (v : Byte) : (s.setNZ v).lineCycles = s.lineCycles := rfl
@[simp] theorem State.setNZ_sinceCheck (s : State) (v : Byte) : (s.setNZ v).sinceCheck = s.sinceCheck := rfl
@[simp] theorem State.setNZ_phase (s : State) (v : Byte) : (s.setNZ v).phase = s.phase := rfl
@[simp] theorem State.setNZ_ram (s : State) (v : Byte) : (s.setNZ v).ram = s.ram := rfl
@[simp] theorem State.setNZ_bankByte (s : State) (v : Byte) : (s.setNZ v).bankByte = s.bankByte := rfl
@[simp] theorem State.setNZ_color (s : State) (v : Byte) : (s.setNZ v).color = s.color := rfl
@[simp] theorem State.setNZ_vic (s : State) (v : Byte) : (s.setNZ v).vic = s.vic := rfl
@[simp] theorem State.setNZ_cia1 (s : State) (v : Byte) : (s.setNZ v).cia1 = s.cia1 := rfl
@[simp] theorem State.setNZ_cia2 (s : State) (v : Byte) : (s.setNZ v).cia2 = s.cia2 := rfl
@[simp] theorem State.setNZ_sid (s : State) (v : Byte) : (s.setNZ v).sid = s.sid := rfl
@[simp] theorem State.setNZ_inject (s : State) (v : Byte) : (s.setNZ v).inject = s.inject := rfl
@[simp] theorem State.setNZ_hostPlan (s : State) (v : Byte) : (s.setNZ v).hostPlan = s.hostPlan := rfl
@[simp] theorem State.setNZ_draws (s : State) (v : Byte) : (s.setNZ v).draws = s.draws := rfl
@[simp] theorem State.setNZ_cfg (s : State) (v : Byte) : (s.setNZ v).cfg = s.cfg := rfl

@[simp] theorem State.setRam_a (s : State) (k : Word) (v : Byte) : (s.setRam k v).a = s.a := rfl
@[simp] theorem State.setRam_x (s : State) (k : Word) (v : Byte) : (s.setRam k v).x = s.x := rfl
@[simp] theorem State.setRam_y (s : State) (k : Word) (v : Byte) : (s.setRam k v).y = s.y := rfl
@[simp] theorem State.setRam_sp (s : State) (k : Word) (v : Byte) : (s.setRam k v).sp = s.sp := rfl
@[simp] theorem State.setRam_pc (s : State) (k : Word) (v : Byte) : (s.setRam k v).pc = s.pc := rfl
@[simp] theorem State.setRam_p (s : State) (k : Word) (v : Byte) : (s.setRam k v).p = s.p := rfl
@[simp] theorem State.setRam_halted (s : State) (k : Word) (v : Byte) : (s.setRam k v).halted = s.halted := rfl
@[simp] theorem State.setRam_haltPC (s : State) (k : Word) (v : Byte) : (s.setRam k v).haltPC = s.haltPC := rfl
@[simp] theorem State.setRam_haltOp (s : State) (k : Word) (v : Byte) : (s.setRam k v).haltOp = s.haltOp := rfl
@[simp] theorem State.setRam_nmiAck (s : State) (k : Word) (v : Byte) : (s.setRam k v).nmiAck = s.nmiAck := rfl
@[simp] theorem State.setRam_lineCycles (s : State) (k : Word) (v : Byte) : (s.setRam k v).lineCycles = s.lineCycles := rfl
@[simp] theorem State.setRam_sinceCheck (s : State) (k : Word) (v : Byte) : (s.setRam k v).sinceCheck = s.sinceCheck := rfl
@[simp] theorem State.setRam_phase (s : State) (k : Word) (v : Byte) : (s.setRam k v).phase = s.phase := rfl
@[simp] theorem State.setRam_ram (s : State) (k : Word) (v : Byte) : (s.setRam k v).ram = s.ram.write k.toNat v := rfl
@[simp] theorem State.setRam_bankByte (s : State) (k : Word) (v : Byte) : (s.setRam k v).bankByte = s.bankByte := rfl
@[simp] theorem State.setRam_color (s : State) (k : Word) (v : Byte) : (s.setRam k v).color = s.color := rfl
@[simp] theorem State.setRam_vic (s : State) (k : Word) (v : Byte) : (s.setRam k v).vic = s.vic := rfl
@[simp] theorem State.setRam_cia1 (s : State) (k : Word) (v : Byte) : (s.setRam k v).cia1 = s.cia1 := rfl
@[simp] theorem State.setRam_cia2 (s : State) (k : Word) (v : Byte) : (s.setRam k v).cia2 = s.cia2 := rfl
@[simp] theorem State.setRam_sid (s : State) (k : Word) (v : Byte) : (s.setRam k v).sid = s.sid := rfl
@[simp] theorem State.setRam_inject (s : State) (k : Word) (v : Byte) : (s.setRam k v).inject = s.inject := rfl
@[simp] theorem State.setRam_hostPlan (s : State) (k : Word) (v : Byte) : (s.setRam k v).hostPlan = s.hostPlan := rfl
@[simp] theorem State.setRam_draws (s : State) (k : Word) (v : Byte) : (s.setRam k v).draws = s.draws := rfl
@[simp] theorem State.setRam_cfg (s : State) (k : Word) (v : Byte) : (s.setRam k v).cfg = s.cfg := rfl

@[simp] theorem State.draw_a (s : State) : s.draw.2.a = s.a := rfl
@[simp] theorem State.draw_x (s : State) : s.draw.2.x = s.x := rfl
@[simp] theorem State.draw_y (s : State) : s.draw.2.y = s.y := rfl
@[simp] theorem State.draw_sp (s : State) : s.draw.2.sp = s.sp := rfl
@[simp] theorem State.draw_pc (s : State) : s.draw.2.pc = s.pc := rfl
@[simp] theorem State.draw_p (s : State) : s.draw.2.p = s.p := rfl
@[simp] theorem State.draw_halted (s : State) : s.draw.2.halted = s.halted := rfl
@[simp] theorem State.draw_haltPC (s : State) : s.draw.2.haltPC = s.haltPC := rfl
@[simp] theorem State.draw_haltOp (s : State) : s.draw.2.haltOp = s.haltOp := rfl
@[simp] theorem State.draw_nmiAck (s : State) : s.draw.2.nmiAck = s.nmiAck := rfl
@[simp] theorem State.draw_lineCycles (s : State) : s.draw.2.lineCycles = s.lineCycles := rfl
@[simp] theorem State.draw_sinceCheck (s : State) : s.draw.2.sinceCheck = s.sinceCheck := rfl
@[simp] theorem State.draw_phase (s : State) : s.draw.2.phase = s.phase := rfl
@[simp] theorem State.draw_ram (s : State) : s.draw.2.ram = s.ram := rfl
@[simp] theorem State.draw_bankByte (s : State) : s.draw.2.bankByte = s.bankByte := rfl
@[simp] theorem State.draw_color (s : State) : s.draw.2.color = s.color := rfl
@[simp] theorem State.draw_vic (s : State) : s.draw.2.vic = s.vic := rfl
@[simp] theorem State.draw_cia1 (s : State) : s.draw.2.cia1 = s.cia1 := rfl
@[simp] theorem State.draw_cia2 (s : State) : s.draw.2.cia2 = s.cia2 := rfl
@[simp] theorem State.draw_sid (s : State) : s.draw.2.sid = s.sid := rfl
@[simp] theorem State.draw_inject (s : State) : s.draw.2.inject = s.inject := rfl
@[simp] theorem State.draw_hostPlan (s : State) : s.draw.2.hostPlan = s.hostPlan := rfl
@[simp] theorem State.draw_draws (s : State) : s.draw.2.draws = s.draws + 1 := rfl
@[simp] theorem State.draw_cfg (s : State) : s.draw.2.cfg = s.cfg := rfl
@[simp] theorem State.draw_value (s : State) : s.draw.1 = Config.freeByte s.draws := rfl

@[simp] theorem State.setCia_a (s : State) (id : CiaId) (c : Cia) : (s.setCia id c).a = s.a := by cases id <;> rfl
@[simp] theorem State.setCia_x (s : State) (id : CiaId) (c : Cia) : (s.setCia id c).x = s.x := by cases id <;> rfl
@[simp] theorem State.setCia_y (s : State) (id : CiaId) (c : Cia) : (s.setCia id c).y = s.y := by cases id <;> rfl
@[simp] theorem State.setCia_sp (s : State) (id : CiaId) (c : Cia) : (s.setCia id c).sp = s.sp := by cases id <;> rfl
@[simp] theorem State.setCia_pc (s : State) (id : CiaId) (c : Cia) : (s.setCia id c).pc = s.pc := by cases id <;> rfl
@[simp] theorem State.setCia_p (s : State) (id : CiaId) (c : Cia) : (s.setCia id c).p = s.p := by cases id <;> rfl
@[simp] theorem State.setCia_halted (s : State) (id : CiaId) (c : Cia) : (s.setCia id c).halted = s.halted := by cases id <;> rfl
@[simp] theorem State.setCia_haltPC (s : State) (id : CiaId) (c : Cia) : (s.setCia id c).haltPC = s.haltPC := by cases id <;> rfl
@[simp] theorem State.setCia_haltOp (s : State) (id : CiaId) (c : Cia) : (s.setCia id c).haltOp = s.haltOp := by cases id <;> rfl
@[simp] theorem State.setCia_nmiAck (s : State) (id : CiaId) (c : Cia) : (s.setCia id c).nmiAck = s.nmiAck := by cases id <;> rfl
@[simp] theorem State.setCia_lineCycles (s : State) (id : CiaId) (c : Cia) : (s.setCia id c).lineCycles = s.lineCycles := by cases id <;> rfl
@[simp] theorem State.setCia_sinceCheck (s : State) (id : CiaId) (c : Cia) : (s.setCia id c).sinceCheck = s.sinceCheck := by cases id <;> rfl
@[simp] theorem State.setCia_phase (s : State) (id : CiaId) (c : Cia) : (s.setCia id c).phase = s.phase := by cases id <;> rfl
@[simp] theorem State.setCia_ram (s : State) (id : CiaId) (c : Cia) : (s.setCia id c).ram = s.ram := by cases id <;> rfl
@[simp] theorem State.setCia_bankByte (s : State) (id : CiaId) (c : Cia) : (s.setCia id c).bankByte = s.bankByte := by cases id <;> rfl
@[simp] theorem State.setCia_color (s : State) (id : CiaId) (c : Cia) : (s.setCia id c).color = s.color := by cases id <;> rfl
@[simp] theorem State.setCia_vic (s : State) (id : CiaId) (c : Cia) : (s.setCia id c).vic = s.vic := by cases id <;> rfl
@[simp] theorem State.setCia_cia1 (s : State) (id : CiaId) (c : Cia) : (s.setCia id c).cia1 = match id with | .cia1 => c | .cia2 => s.cia1 := by cases id <;> rfl
@[simp] theorem State.setCia_cia2 (s : State) (id : CiaId) (c : Cia) : (s.setCia id c).cia2 = match id with | .cia1 => s.cia2 | .cia2 => c := by cases id <;> rfl
@[simp] theorem State.setCia_sid (s : State) (id : CiaId) (c : Cia) : (s.setCia id c).sid = s.sid := by cases id <;> rfl
@[simp] theorem State.setCia_inject (s : State) (id : CiaId) (c : Cia) : (s.setCia id c).inject = s.inject := by cases id <;> rfl
@[simp] theorem State.setCia_hostPlan (s : State) (id : CiaId) (c : Cia) : (s.setCia id c).hostPlan = s.hostPlan := by cases id <;> rfl
@[simp] theorem State.setCia_draws (s : State) (id : CiaId) (c : Cia) : (s.setCia id c).draws = s.draws := by cases id <;> rfl
@[simp] theorem State.setCia_cfg (s : State) (id : CiaId) (c : Cia) : (s.setCia id c).cfg = s.cfg := by cases id <;> rfl

@[simp] theorem State.cia_one (s : State) : s.cia .cia1 = s.cia1 := rfl
@[simp] theorem State.cia_two (s : State) : s.cia .cia2 = s.cia2 := rfl

@[simp] theorem Status.withNZ_n (p : Status) (r : Byte) : (p.withNZ r).n = r.getLsbD 7 := rfl
@[simp] theorem Status.withNZ_v (p : Status) (r : Byte) : (p.withNZ r).v = p.v := rfl
@[simp] theorem Status.withNZ_b (p : Status) (r : Byte) : (p.withNZ r).b = p.b := rfl
@[simp] theorem Status.withNZ_d (p : Status) (r : Byte) : (p.withNZ r).d = p.d := rfl
@[simp] theorem Status.withNZ_i (p : Status) (r : Byte) : (p.withNZ r).i = p.i := rfl
@[simp] theorem Status.withNZ_z (p : Status) (r : Byte) : (p.withNZ r).z = (r == 0#8) := rfl
@[simp] theorem Status.withNZ_c (p : Status) (r : Byte) : (p.withNZ r).c = p.c := rfl
@[simp] theorem Status.withAlu_n (p : Status) (o : AluOut) : (p.withAlu o).n = o.n := rfl
@[simp] theorem Status.withAlu_v (p : Status) (o : AluOut) : (p.withAlu o).v = o.v := rfl
@[simp] theorem Status.withAlu_b (p : Status) (o : AluOut) : (p.withAlu o).b = p.b := rfl
@[simp] theorem Status.withAlu_d (p : Status) (o : AluOut) : (p.withAlu o).d = p.d := rfl
@[simp] theorem Status.withAlu_i (p : Status) (o : AluOut) : (p.withAlu o).i = p.i := rfl
@[simp] theorem Status.withAlu_z (p : Status) (o : AluOut) : (p.withAlu o).z = o.z := rfl
@[simp] theorem Status.withAlu_c (p : Status) (o : AluOut) : (p.withAlu o).c = o.c := rfl
@[simp] theorem Status.withCompare_n (p : Status) (r m : Byte) : (p.withCompare r m).n = (r - m).getLsbD 7 := rfl
@[simp] theorem Status.withCompare_v (p : Status) (r m : Byte) : (p.withCompare r m).v = p.v := rfl
@[simp] theorem Status.withCompare_b (p : Status) (r m : Byte) : (p.withCompare r m).b = p.b := rfl
@[simp] theorem Status.withCompare_d (p : Status) (r m : Byte) : (p.withCompare r m).d = p.d := rfl
@[simp] theorem Status.withCompare_i (p : Status) (r m : Byte) : (p.withCompare r m).i = p.i := rfl
@[simp] theorem Status.withCompare_z (p : Status) (r m : Byte) : (p.withCompare r m).z = (r == m) := rfl
@[simp] theorem Status.withCompare_c (p : Status) (r m : Byte) : (p.withCompare r m).c = decide (m.toNat ≤ r.toNat) := rfl
@[simp] theorem Status.withBit_n (p : Status) (r m : Byte) : (p.withBit r m).n = m.getLsbD 7 := rfl
@[simp] theorem Status.withBit_v (p : Status) (r m : Byte) : (p.withBit r m).v = m.getLsbD 6 := rfl
@[simp] theorem Status.withBit_b (p : Status) (r m : Byte) : (p.withBit r m).b = p.b := rfl
@[simp] theorem Status.withBit_d (p : Status) (r m : Byte) : (p.withBit r m).d = p.d := rfl
@[simp] theorem Status.withBit_i (p : Status) (r m : Byte) : (p.withBit r m).i = p.i := rfl
@[simp] theorem Status.withBit_z (p : Status) (r m : Byte) : (p.withBit r m).z = ((r &&& m) == 0#8) := rfl
@[simp] theorem Status.withBit_c (p : Status) (r m : Byte) : (p.withBit r m).c = p.c := rfl

end Sys2Proof.Machine
end

