-- ==== Sys2Proof/Laws/Bus.lean ====
section
/-! SUPPORT. What a bus access can do (20_memory R110 to R123): which fields of the state a read and a write can change, that an
access outside the I/O range is plain memory, and what a push and a pull are on the stack page, which is RAM in every bank
mode. -/

namespace Sys2Proof.Machine

/-- A register read of the video chip changes the chip and the draws alone. -/
theorem vicRead_state (i : BitVec 6) (s : State) :
    (vicRead i s).2 = { s with vic := (vicRead i s).2.vic, draws := (vicRead i s).2.draws } := by
  unfold vicRead State.draw
  simp only
  split <;> rfl

/-- A register read of a sound chip changes the draws alone. -/
theorem sidRead_state (o : Byte) (s : State) : (sidRead o s).2 = { s with draws := (sidRead o s).2.draws } := by
  unfold sidRead State.draw
  split <;> rfl

/-- A register read of a timer controller changes that controller, the NMI acknowledge latch and the draws alone. -/
theorem ciaRead_state (id : CiaId) (i : BitVec 4) (s : State) :
    (ciaRead id i s).2 =
      { s with
        cia1 := (ciaRead id i s).2.cia1, cia2 := (ciaRead id i s).2.cia2, nmiAck := (ciaRead id i s).2.nmiAck
        draws := (ciaRead id i s).2.draws } := by
  cases id <;> simp only [ciaRead] <;> split <;> rfl

/-- An I/O read changes the video chip, the timer controllers, the NMI acknowledge latch and the draws alone. -/
theorem ioRead_state (a : Word) (s : State) :
    (ioRead a s).2 =
      { s with
        vic := (ioRead a s).2.vic, cia1 := (ioRead a s).2.cia1, cia2 := (ioRead a s).2.cia2
        nmiAck := (ioRead a s).2.nmiAck, draws := (ioRead a s).2.draws } := by
  simp only [ioRead]
  repeat' split
  · rw [vicRead_state]
  · rw [sidRead_state]
  · rfl
  · rw [ciaRead_state]
  · rw [ciaRead_state]
  · rfl

/-- What a bus read can change (R123): the video chip, the timer controllers, the NMI acknowledge latch and the draws. -/
theorem busRead_state (a : Word) (s : State) :
    (busRead a s).2 =
      { s with
        vic := (busRead a s).2.vic, cia1 := (busRead a s).2.cia1, cia2 := (busRead a s).2.cia2
        nmiAck := (busRead a s).2.nmiAck, draws := (busRead a s).2.draws } := by
  unfold busRead
  split
  · rfl
  · rfl
  · rw [ioRead_state]
  · rfl
  · rfl
  · rfl

@[simp] theorem busRead_a (a : Word) (s : State) : (busRead a s).2.a = s.a := by
  have h := congrArg State.a (busRead_state a s)
  exact h

@[simp] theorem busRead_x (a : Word) (s : State) : (busRead a s).2.x = s.x := by
  have h := congrArg State.x (busRead_state a s)
  exact h

@[simp] theorem busRead_y (a : Word) (s : State) : (busRead a s).2.y = s.y := by
  have h := congrArg State.y (busRead_state a s)
  exact h

@[simp] theorem busRead_sp (a : Word) (s : State) : (busRead a s).2.sp = s.sp := by
  have h := congrArg State.sp (busRead_state a s)
  exact h

@[simp] theorem busRead_pc (a : Word) (s : State) : (busRead a s).2.pc = s.pc := by
  have h := congrArg State.pc (busRead_state a s)
  exact h

@[simp] theorem busRead_p (a : Word) (s : State) : (busRead a s).2.p = s.p := by
  have h := congrArg State.p (busRead_state a s)
  exact h

@[simp] theorem busRead_halted (a : Word) (s : State) : (busRead a s).2.halted = s.halted := by
  have h := congrArg State.halted (busRead_state a s)
  exact h

@[simp] theorem busRead_haltPC (a : Word) (s : State) : (busRead a s).2.haltPC = s.haltPC := by
  have h := congrArg State.haltPC (busRead_state a s)
  exact h

@[simp] theorem busRead_haltOp (a : Word) (s : State) : (busRead a s).2.haltOp = s.haltOp := by
  have h := congrArg State.haltOp (busRead_state a s)
  exact h

@[simp] theorem busRead_lineCycles (a : Word) (s : State) : (busRead a s).2.lineCycles = s.lineCycles := by
  have h := congrArg State.lineCycles (busRead_state a s)
  exact h

@[simp] theorem busRead_sinceCheck (a : Word) (s : State) : (busRead a s).2.sinceCheck = s.sinceCheck := by
  have h := congrArg State.sinceCheck (busRead_state a s)
  exact h

@[simp] theorem busRead_phase (a : Word) (s : State) : (busRead a s).2.phase = s.phase := by
  have h := congrArg State.phase (busRead_state a s)
  exact h

@[simp] theorem busRead_ram (a : Word) (s : State) : (busRead a s).2.ram = s.ram := by
  have h := congrArg State.ram (busRead_state a s)
  exact h

@[simp] theorem busRead_bankByte (a : Word) (s : State) : (busRead a s).2.bankByte = s.bankByte := by
  have h := congrArg State.bankByte (busRead_state a s)
  exact h

@[simp] theorem busRead_color (a : Word) (s : State) : (busRead a s).2.color = s.color := by
  have h := congrArg State.color (busRead_state a s)
  exact h

@[simp] theorem busRead_sid (a : Word) (s : State) : (busRead a s).2.sid = s.sid := by
  have h := congrArg State.sid (busRead_state a s)
  exact h

@[simp] theorem busRead_inject (a : Word) (s : State) : (busRead a s).2.inject = s.inject := by
  have h := congrArg State.inject (busRead_state a s)
  exact h

@[simp] theorem busRead_hostPlan (a : Word) (s : State) : (busRead a s).2.hostPlan = s.hostPlan := by
  have h := congrArg State.hostPlan (busRead_state a s)
  exact h

@[simp] theorem busRead_cfg (a : Word) (s : State) : (busRead a s).2.cfg = s.cfg := by
  have h := congrArg State.cfg (busRead_state a s)
  exact h

/-- A bus read outside the I/O range changes nothing (R123). -/
theorem busRead_pure {a : Word} {s : State} (h : readRoute s.visible a ≠ .io) : (busRead a s).2 = s := by
  unfold busRead
  split <;> first | rfl | contradiction

/-- What a bus write can change (R112, R124): RAM, the bank byte, colour memory and the devices. -/
theorem busWrite_state (a : Word) (v : Byte) (s : State) :
    busWrite a v s =
      { s with
        ram := (busWrite a v s).ram, bankByte := (busWrite a v s).bankByte, color := (busWrite a v s).color
        vic := (busWrite a v s).vic, cia1 := (busWrite a v s).cia1, cia2 := (busWrite a v s).cia2
        sid := (busWrite a v s).sid } := by
  unfold busWrite
  split
  · rfl
  · simp only [ioWrite, sidWrite]
    repeat' split
    all_goals rfl
  · rfl

@[simp] theorem busWrite_a (a : Word) (v : Byte) (s : State) : (busWrite a v s).a = s.a := by
  have h := congrArg State.a (busWrite_state a v s)
  exact h

@[simp] theorem busWrite_x (a : Word) (v : Byte) (s : State) : (busWrite a v s).x = s.x := by
  have h := congrArg State.x (busWrite_state a v s)
  exact h

@[simp] theorem busWrite_y (a : Word) (v : Byte) (s : State) : (busWrite a v s).y = s.y := by
  have h := congrArg State.y (busWrite_state a v s)
  exact h

@[simp] theorem busWrite_sp (a : Word) (v : Byte) (s : State) : (busWrite a v s).sp = s.sp := by
  have h := congrArg State.sp (busWrite_state a v s)
  exact h

@[simp] theorem busWrite_pc (a : Word) (v : Byte) (s : State) : (busWrite a v s).pc = s.pc := by
  have h := congrArg State.pc (busWrite_state a v s)
  exact h

@[simp] theorem busWrite_p (a : Word) (v : Byte) (s : State) : (busWrite a v s).p = s.p := by
  have h := congrArg State.p (busWrite_state a v s)
  exact h

@[simp] theorem busWrite_halted (a : Word) (v : Byte) (s : State) : (busWrite a v s).halted = s.halted := by
  have h := congrArg State.halted (busWrite_state a v s)
  exact h

@[simp] theorem busWrite_haltPC (a : Word) (v : Byte) (s : State) : (busWrite a v s).haltPC = s.haltPC := by
  have h := congrArg State.haltPC (busWrite_state a v s)
  exact h

@[simp] theorem busWrite_haltOp (a : Word) (v : Byte) (s : State) : (busWrite a v s).haltOp = s.haltOp := by
  have h := congrArg State.haltOp (busWrite_state a v s)
  exact h

@[simp] theorem busWrite_nmiAck (a : Word) (v : Byte) (s : State) : (busWrite a v s).nmiAck = s.nmiAck := by
  have h := congrArg State.nmiAck (busWrite_state a v s)
  exact h

@[simp] theorem busWrite_lineCycles (a : Word) (v : Byte) (s : State) : (busWrite a v s).lineCycles = s.lineCycles := by
  have h := congrArg State.lineCycles (busWrite_state a v s)
  exact h

@[simp] theorem busWrite_sinceCheck (a : Word) (v : Byte) (s : State) : (busWrite a v s).sinceCheck = s.sinceCheck := by
  have h := congrArg State.sinceCheck (busWrite_state a v s)
  exact h

@[simp] theorem busWrite_phase (a : Word) (v : Byte) (s : State) : (busWrite a v s).phase = s.phase := by
  have h := congrArg State.phase (busWrite_state a v s)
  exact h

@[simp] theorem busWrite_inject (a : Word) (v : Byte) (s : State) : (busWrite a v s).inject = s.inject := by
  have h := congrArg State.inject (busWrite_state a v s)
  exact h

@[simp] theorem busWrite_hostPlan (a : Word) (v : Byte) (s : State) : (busWrite a v s).hostPlan = s.hostPlan := by
  have h := congrArg State.hostPlan (busWrite_state a v s)
  exact h

@[simp] theorem busWrite_draws (a : Word) (v : Byte) (s : State) : (busWrite a v s).draws = s.draws := by
  have h := congrArg State.draws (busWrite_state a v s)
  exact h

@[simp] theorem busWrite_cfg (a : Word) (v : Byte) (s : State) : (busWrite a v s).cfg = s.cfg := by
  have h := congrArg State.cfg (busWrite_state a v s)
  exact h

/-- Below 0xA000, and not at the bank byte, a read reaches RAM in every bank mode (R110). -/
theorem readRoute_low {f : BankRow} {a : Word} (h : a.toNat < 0xA000) (h1 : a ≠ 1#16) : readRoute f a = .ram := by
  simp only [readRoute, inIoRange, show ¬ 0xA000 ≤ a.toNat by omega, show ¬ 0xD000 ≤ a.toNat by omega,
    show ¬ 0xE000 ≤ a.toNat by omega, h1, decide_false, Bool.and_false, Bool.false_and, if_false, Bool.false_eq_true]

/-- Below 0xA000, and not at the bank byte, a write reaches RAM in every bank mode (R112). -/
theorem writeRoute_low {f : BankRow} {a : Word} (h : a.toNat < 0xA000) (h1 : a ≠ 1#16) : writeRoute f a = .ram := by
  simp only [writeRoute, inIoRange, show ¬ 0xD000 ≤ a.toNat by omega, h1, decide_false, Bool.and_false, Bool.false_and,
    if_false, Bool.false_eq_true]

/-- A read of RAM below 0xA000. -/
theorem busRead_low {a : Word} {s : State} (h : a.toNat < 0xA000) (h1 : a ≠ 1#16) : busRead a s = (s.ram.read a.toNat, s) := by
  unfold busRead
  rw [readRoute_low h h1]

/-- A write of RAM below 0xA000. -/
theorem busWrite_low {a : Word} {v : Byte} {s : State} (h : a.toNat < 0xA000) (h1 : a ≠ 1#16) :
    busWrite a v s = s.setRam a v := by
  unfold busWrite
  rw [writeRoute_low h h1]

/-- A read of the bank byte (R114). -/
theorem busRead_one (s : State) : busRead 1#16 s = (s.bankByte, s) := by
  have h : readRoute s.visible 1#16 = .bankByte := by simp [readRoute, inIoRange]
  unfold busRead
  rw [h]

theorem toNat_zext16 (v : Byte) : (zext16 v).toNat = v.toNat := by simp [zext16]; omega

/-- A read of page 0 is pure (R123). -/
theorem busRead_zeroPage (z : Byte) (s : State) :
    busRead (zext16 z) s = (if z = 1#8 then s.bankByte else s.ram.read z.toNat, s) := by
  by_cases h : z = 1#8
  · subst h; exact busRead_one s
  · have h1 : zext16 z ≠ 1#16 := by
      intro e
      have e' := congrArg BitVec.toNat e
      rw [toNat_zext16] at e'
      exact h (BitVec.eq_of_toNat_eq (by simpa using e'))
    rw [busRead_low (by rw [toNat_zext16]; omega) h1, toNat_zext16]
    simp [h]

/-- The number of a stack address (R41): page 1. -/
theorem toNat_stackAddr (sp : Byte) : (stackAddr sp).toNat = 0x100 + sp.toNat := by
  have h : stackAddr sp = 0x0100#16 + zext16 sp := by
    unfold stackAddr zext16
    revert sp
    decide
  rw [h, BitVec.toNat_add, toNat_zext16]
  simp
  omega

theorem stackAddr_ne_one (sp : Byte) : stackAddr sp ≠ 1#16 := by
  intro e
  have := congrArg BitVec.toNat e
  rw [toNat_stackAddr] at this
  simp at this
  omega

/-- Two stack addresses are one only when the stack pointers are. -/
theorem stackAddr_inj {p q : Byte} (h : stackAddr p = stackAddr q) : p = q := by
  have := congrArg BitVec.toNat h
  rw [toNat_stackAddr, toNat_stackAddr] at this
  exact BitVec.eq_of_toNat_eq (by omega)

/-- A push (R14, R41): the byte goes to RAM in page 1 and SP steps down, whatever the bank mode. -/
theorem push_eq (v : Byte) (s : State) :
    push v s = { s with ram := s.ram.write (stackAddr s.sp).toNat v, sp := s.sp - 1#8 } := by
  have h : (stackAddr s.sp).toNat < 0xA000 := by rw [toNat_stackAddr]; omega
  simp only [push, busWrite_low h (stackAddr_ne_one _), State.setRam, State.setSP]

/-- A pull (R14, R41): SP steps up, and the byte comes from RAM in page 1, whatever the bank mode. -/
theorem pull_eq (s : State) :
    pull s = (s.ram.read (stackAddr (s.sp + 1#8)).toNat, { s with sp := s.sp + 1#8 }) := by
  have h : (stackAddr (s.sp + 1#8)).toNat < 0xA000 := by rw [toNat_stackAddr]; omega
  simp only [pull, State.setSP, busRead_low h (stackAddr_ne_one _)]

/-- A word pushed (R122): high byte at the higher address. -/
theorem pushWord_eq (w : Word) (s : State) :
    pushWord w s =
      { s with
        ram := (s.ram.write (stackAddr s.sp).toNat (hiByte w)).write (stackAddr (s.sp - 1#8)).toNat (loByte w)
        sp := s.sp - 2#8 } := by
  have h : s.sp - 1#8 - 1#8 = s.sp - 2#8 := by rw [BitVec.sub_sub]; rfl
  simp only [pushWord, push_eq, h]

/-- A word pulled (R292, R303): low byte from the lower address. -/
theorem pullWord_eq (s : State) :
    pullWord s =
      (wordOf (s.ram.read (stackAddr (s.sp + 1#8)).toNat) (s.ram.read (stackAddr (s.sp + 2#8)).toNat),
        { s with sp := s.sp + 2#8 }) := by
  have h : s.sp + 1#8 + 1#8 = s.sp + 2#8 := by rw [BitVec.add_assoc]; rfl
  simp only [pullWord, pull_eq, h]

/-- The status pulled by PLP and RTI (R229, R303): the stored break flag is a draw. -/
theorem pullStatus_eq (s : State) :
    pullStatus s =
      { s with
        sp := s.sp + 1#8
        p := Status.ofByte (s.ram.read (stackAddr (s.sp + 1#8)).toNat) ((Config.freeByte s.draws).getLsbD 0)
        draws := s.draws + 1 } := by
  simp only [pullStatus, pull_eq, State.draw, State.setP]

/-- Returning from an interrupt (R303): the status, then PC, from the three stack bytes above SP. -/
theorem returnInterrupt_eq (s : State) :
    returnInterrupt s =
      { s with
        sp := s.sp + 3#8
        p := Status.ofByte (s.ram.read (stackAddr (s.sp + 1#8)).toNat) ((Config.freeByte s.draws).getLsbD 0)
        pc :=
          wordOf (s.ram.read (stackAddr (s.sp + 2#8)).toNat) (s.ram.read (stackAddr (s.sp + 3#8)).toNat)
        draws := s.draws + 1 } := by
  have h1 : s.sp + 1#8 + 1#8 = s.sp + 2#8 := by rw [BitVec.add_assoc]; rfl
  have h2 : s.sp + 1#8 + 2#8 = s.sp + 3#8 := by rw [BitVec.add_assoc]; rfl
  simp only [returnInterrupt, pullStatus_eq, pullWord_eq, State.setPC, h1, h2]

/-- Taking an interrupt (R421): three bytes pushed, I set, and PC read from the vector in the state after the pushes. -/
theorem takeInterrupt_eq (b : Bool) (vector : Word) (s : State) :
    takeInterrupt b vector s =
      (let t : State :=
        { s with
          ram :=
            ((s.ram.write (stackAddr s.sp).toNat (hiByte s.pc)).write (stackAddr (s.sp - 1#8)).toNat (loByte s.pc)).write
              (stackAddr (s.sp - 2#8)).toNat (s.p.pack b)
          sp := s.sp - 3#8
          p := { s.p with i := true } }
      (busRead16 vector t).2.setPC (busRead16 vector t).1) := by
  have h : s.sp - 2#8 - 1#8 = s.sp - 3#8 := by rw [BitVec.sub_sub]; rfl
  simp only [takeInterrupt, pushWord_eq, push_eq, State.setP, h]

end Sys2Proof.Machine
end

