-- ==== Sys2Proof/Laws/Devices.lean ====
section
/-! SUPPORT. The devices keep their invariants: one lemma for each operation on the video chip, a timer controller, a time of
day, and the sound engine. -/

namespace Sys2Proof.Machine

/-! The video chip. -/

theorem VicInv.of_same {v w : Vic} (h : VicInv v) (hr : w.regs = v.regs) (hc : w.compare = v.compare) (hra : w.raster = v.raster)
    (hl : w.latch.getLsbD 3 = false) (hf : w.frame = v.frame) (hb : w.border = v.border) : VicInv w where
  raster := hra ▸ h.raster
  lightPen := hl
  compareHigh := by rw [hc, Vic.reg, hr]; exact h.compareHigh
  compareLow := by rw [hc, Vic.reg, hr]; exact h.compareLow
  frameRows := hf ▸ h.frameRows
  borderEntries := hb ▸ h.borderEntries

/-- The top bit of a 9-bit value joined from a bit and a byte. -/
theorem getLsbD_join (b : Bool) (v : Byte) : (BitVec.ofBool b ++ v).getLsbD 8 = b := by
  revert b v
  decide

/-- The low byte of a 9-bit value joined from a bit and a byte. -/
theorem extract_join (b : Bool) (v : Byte) : (BitVec.ofBool b ++ v).extractLsb' 0 8 = v := by
  revert b v
  decide

theorem getLsbD_or_keep {w : Nat} {v : BitVec w} {k : Nat} (m : BitVec w) (h : v.getLsbD k = false) (hm : m.getLsbD k = false) :
    (v ||| m).getLsbD k = false := by
  rw [BitVec.getLsbD_or, h, hm]
  rfl

theorem getLsbD_and_keep {w : Nat} {v : BitVec w} {k : Nat} (m : BitVec w) (h : v.getLsbD k = false) :
    (v &&& m).getLsbD k = false := by
  rw [BitVec.getLsbD_and, h, Bool.false_and]

theorem Vic.write_regs_wf {c : Vic} (h : c.regs.wf) (i : BitVec 6) (v : Byte) : (c.write i v).regs.wf := by
  unfold Vic.write
  repeat' split
  all_goals first | exact h | exact Memory.wf_write h _ _

theorem Vic.write_regs_within {c : Vic} (h : c.regs.within 64) (i : BitVec 6) (v : Byte) : (c.write i v).regs.within 64 := by
  unfold Vic.write
  repeat' split
  all_goals first | exact h | exact Memory.within_write h (by omega) _

theorem VicInv.write {c : Vic} (h : VicInv c) (i : BitVec 6) (v : Byte) : VicInv (c.write i v) := by
  have plain : ∀ n : Nat, n ≠ 0x11 → n ≠ 0x12 → VicInv { c with regs := c.regs.write n v } := by
    intro n h11 h12
    exact
      { raster := h.raster
        lightPen := h.lightPen
        compareHigh := by rw [Vic.reg, Memory.read_write_ne _ (Ne.symm h11)]; exact h.compareHigh
        compareLow := by rw [Vic.reg, Memory.read_write_ne _ (Ne.symm h12)]; exact h.compareLow
        frameRows := h.frameRows
        borderEntries := h.borderEntries }
  unfold Vic.write
  split
  · refine ⟨h.raster, h.lightPen, ?_, ?_, h.frameRows, h.borderEntries⟩
    · rw [Vic.reg, Memory.read_write_self]
      exact getLsbD_join _ _
    · rw [Vic.reg, Memory.read_write_ne _ (by decide)]
      exact (extract_join _ _).trans h.compareLow
  · refine ⟨h.raster, h.lightPen, ?_, ?_, h.frameRows, h.borderEntries⟩
    · rw [Vic.reg, Memory.read_write_ne _ (by decide)]
      exact (getLsbD_join _ _).trans h.compareHigh
    · rw [Vic.reg, Memory.read_write_self]
      exact extract_join _ _
  · exact h
  · exact h
  · exact h.of_same rfl rfl rfl (getLsbD_and_keep _ h.lightPen) rfl rfl
  · exact h.of_same rfl rfl rfl h.lightPen rfl rfl
  · exact h
  · exact h
  · split
    · exact h
    · exact plain _ (by assumption) (by assumption)

theorem VicInv.afterRead {c : Vic} (h : VicInv c) (n : Nat) : VicInv (c.afterRead n) := by
  unfold Vic.afterRead
  split
  · exact h.of_same rfl rfl rfl h.lightPen rfl rfl
  · exact h.of_same rfl rfl rfl h.lightPen rfl rfl
  · exact h

@[simp] theorem Vic.afterRead_regs (c : Vic) (n : Nat) : (c.afterRead n).regs = c.regs := by
  unfold Vic.afterRead
  split <;> rfl

theorem VicInv.nextLine {c : Vic} (h : VicInv c) : VicInv c.nextLine := by
  have hb : (nextRaster c.raster).toNat < 312 := by
    unfold nextRaster
    rw [BitVec.toNat_ofNat, Nat.mod_eq_of_lt]
    · omega
    · omega
  refine ⟨hb, ?_, h.compareHigh, h.compareLow, h.frameRows, h.borderEntries⟩
  unfold Vic.nextLine
  simp only
  split
  · exact getLsbD_or_keep _ h.lightPen rfl
  · exact h.lightPen

theorem VicInv.collide {c : Vic} (h : VicInv c) (ss sd : Byte) : VicInv (c.collide ss sd) := by
  refine h.of_same rfl rfl rfl ?_ rfl rfl
  unfold Vic.collide
  simp only
  repeat' split
  all_goals first
    | exact h.lightPen
    | exact getLsbD_or_keep _ h.lightPen rfl
    | exact getLsbD_or_keep _ (getLsbD_or_keep _ h.lightPen rfl) rfl

theorem vicInv_drawRasterline {s : State} (h : VicInv s.vic) : VicInv (drawRasterline s).vic := by
  have hb : ∀ e ∈ putAt s.vic.raster.toNat (s.vic.colour 0x20) s.vic.border, e.1 < 312 := by
    intro e he
    rcases mem_putAt he with rfl | he
    · exact h.raster
    · exact h.borderEntries e he
  have base : VicInv { s.vic with border := putAt s.vic.raster.toNat (s.vic.colour 0x20) s.vic.border } :=
    ⟨h.raster, h.lightPen, h.compareHigh, h.compareLow, h.frameRows, hb⟩
  unfold drawRasterline
  simp only
  split
  · rename_i hin
    have hr : s.vic.raster.toNat ≤ 0xFA := by
      simp only [inFrame, Bool.and_eq_true, decide_eq_true_eq] at hin
      exact hin.2
    have row : VicInv
        { s.vic with
          border := putAt s.vic.raster.toNat (s.vic.colour 0x20) s.vic.border
          frame := putAt (s.vic.raster.toNat - 0x33) ((List.range 320).map (shownPixel s s.vic.raster.toNat)) s.vic.frame } := by
      refine ⟨h.raster, h.lightPen, h.compareHigh, h.compareLow, ?_, hb⟩
      intro e he
      rcases mem_putAt he with rfl | he
      · exact ⟨by simp only; omega, by rw [List.length_map, List.length_range]⟩
      · exact h.frameRows e he
    split
    · exact row.collide _ _
    · exact row
  · exact base

theorem drawRasterline_regs (s : State) : (drawRasterline s).vic.regs = s.vic.regs := by
  unfold drawRasterline
  simp only
  repeat' split
  all_goals rfl

/-- Drawing a line changes the video chip alone (R600). -/
theorem drawRasterline_state (s : State) : drawRasterline s = { s with vic := (drawRasterline s).vic } := by
  unfold drawRasterline
  simp only
  repeat' split
  all_goals rfl

/-! A time of day. -/

theorem TodInv.mask (t : Tod) (h : TodInv t) (v : Byte) :
    TodInv { t with t10 := v &&& 0x0F#8 } ∧ TodInv { t with sec := v &&& 0x7F#8 } ∧ TodInv { t with min := v &&& 0x7F#8 } ∧
      TodInv { t with hr := v &&& 0x9F#8 } := by
  refine ⟨⟨?_, h.seconds, h.minutes, h.hours⟩, ⟨h.tenths, ?_, h.minutes, h.hours⟩, ⟨h.tenths, h.seconds, ?_, h.hours⟩,
    ⟨h.tenths, h.seconds, h.minutes, ?_⟩⟩
  all_goals
    show v &&& _ &&& _ = 0
    rw [BitVec.and_assoc]
    simp

theorem incField_tenths (x : Byte) (s : State) : (incField x 0x09 0x0F s).1.1 &&& 0xF0#8 = 0 := by
  unfold incField
  split
  · rename_i h
    exact (by decide : ∀ x : Byte, bcdLegal x 9 = true → (incBcd x 9).1 &&& 0xF0#8 = 0) x h
  · show _ &&& _ &&& _ = 0
    rw [BitVec.and_assoc]
    simp

theorem incField_sixty (x : Byte) (s : State) : (incField x 0x59 0x7F s).1.1 &&& 0x80#8 = 0 := by
  unfold incField
  split
  · rename_i h
    exact (by decide : ∀ x : Byte, bcdLegal x 0x59 = true → (incBcd x 0x59).1 &&& 0x80#8 = 0) x h
  · show _ &&& _ &&& _ = 0
    rw [BitVec.and_assoc]
    simp

theorem incHoursField_hours (x : Byte) (s : State) : (incHoursField x s).1 &&& 0x60#8 = 0 := by
  unfold incHoursField
  split
  · rename_i h
    exact (by decide : ∀ x : Byte, hoursLegal x = true → incHours x &&& 0x60#8 = 0) x h
  · show _ &&& _ &&& _ = 0
    rw [BitVec.and_assoc]
    simp

theorem TodInv.inc {t : Tod} (h : TodInv t) (s : State) : TodInv (todInc t s).1 := by
  unfold todInc
  simp only
  repeat' split
  · exact ⟨incField_tenths _ _, incField_sixty _ _, incField_sixty _ _, incHoursField_hours _ _⟩
  · exact ⟨incField_tenths _ _, incField_sixty _ _, incField_sixty _ _, h.hours⟩
  · exact ⟨incField_tenths _ _, incField_sixty _ _, h.minutes, h.hours⟩
  · exact ⟨incField_tenths _ _, h.seconds, h.minutes, h.hours⟩

/-- A tick of a time of day changes the draws alone. -/
theorem todInc_state (t : Tod) (s : State) : (todInc t s).2 = { s with draws := (todInc t s).2.draws } := by
  have f : ∀ (x max mask : Byte) (u : State), (incField x max mask u).2 = { u with draws := (incField x max mask u).2.draws } := by
    intro x max mask u
    unfold incField
    split <;> rfl
  have g : ∀ (x : Byte) (u : State), (incHoursField x u).2 = { u with draws := (incHoursField x u).2.draws } := by
    intro x u
    unfold incHoursField
    split <;> rfl
  unfold todInc
  simp only
  repeat' split
  · rw [g, f, f, f]
  · rw [f, f, f]
  · rw [f, f]
  · rw [f]

/-! A timer controller. -/

theorem CiaInv.recompose {c : Cia} (h4 : c.icrLatch.getLsbD 4 = false) (ha : c.cra.getLsbD 4 = false)
    (hb : c.crb.getLsbD 4 = false) (ht : TodInv c.tod) (hl : TodInv c.alarm) (hs : TodInv c.todSnap) : CiaInv c.recompose :=
  ⟨h4, ha, hb, rfl, ht, hl, hs⟩

theorem CiaInv.writeTod {c : Cia} (h : CiaInv c) {set : Tod → Tod} (hset : ∀ t, TodInv t → TodInv (set t)) (run : Bool) :
    CiaInv (c.writeTod set run) := by
  unfold Cia.writeTod
  split
  · exact ⟨h.flagPin, h.strobeA, h.strobeB, h.composite, h.time, hset _ h.alarm, h.snapshot⟩
  · exact ⟨h.flagPin, h.strobeA, h.strobeB, h.composite, hset _ h.time, h.alarm, h.snapshot⟩

theorem getLsbD_and_EF (v : Byte) : (v &&& 0xEF#8).getLsbD 4 = false := by
  rw [BitVec.getLsbD_and]
  exact Bool.and_false _

theorem CiaInv.write {c : Cia} (h : CiaInv c) (i : BitVec 4) (v : Byte) : CiaInv (c.write i v) := by
  unfold Cia.write
  split
  · exact ⟨h.flagPin, h.strobeA, h.strobeB, h.composite, h.time, h.alarm, h.snapshot⟩
  · exact ⟨h.flagPin, h.strobeA, h.strobeB, h.composite, h.time, h.alarm, h.snapshot⟩
  · exact ⟨h.flagPin, h.strobeA, h.strobeB, h.composite, h.time, h.alarm, h.snapshot⟩
  · exact ⟨h.flagPin, h.strobeA, h.strobeB, h.composite, h.time, h.alarm, h.snapshot⟩
  · exact ⟨h.flagPin, h.strobeA, h.strobeB, h.composite, h.time, h.alarm, h.snapshot⟩
  · exact ⟨h.flagPin, h.strobeA, h.strobeB, h.composite, h.time, h.alarm, h.snapshot⟩
  · exact ⟨h.flagPin, h.strobeA, h.strobeB, h.composite, h.time, h.alarm, h.snapshot⟩
  · exact ⟨h.flagPin, h.strobeA, h.strobeB, h.composite, h.time, h.alarm, h.snapshot⟩
  · exact h.writeTod (fun t ht => (ht.mask t v).1) _
  · exact h.writeTod (fun t ht => (ht.mask t v).2.1) _
  · exact h.writeTod (fun t ht => (ht.mask t v).2.2.1) _
  · exact h.writeTod (fun t ht => (ht.mask t v).2.2.2) _
  · exact ⟨h.flagPin, h.strobeA, h.strobeB, h.composite, h.time, h.alarm, h.snapshot⟩
  · exact CiaInv.recompose h.flagPin h.strobeA h.strobeB h.time h.alarm h.snapshot
  · exact ⟨h.flagPin, getLsbD_and_EF v, h.strobeB, h.composite, h.time, h.alarm, h.snapshot⟩
  · exact ⟨h.flagPin, h.strobeA, getLsbD_and_EF v, h.composite, h.time, h.alarm, h.snapshot⟩

theorem CiaInv.readTenths {c : Cia} (h : CiaInv c) : CiaInv c.readTenths.2 :=
  ⟨h.flagPin, h.strobeA, h.strobeB, h.composite, h.time, h.alarm, h.snapshot⟩

theorem CiaInv.readHours {c : Cia} (h : CiaInv c) : CiaInv c.readHours.2 := by
  unfold Cia.readHours
  simp only
  split
  · exact h
  · exact ⟨h.flagPin, h.strobeA, h.strobeB, h.composite, h.time, h.alarm, h.time⟩

theorem CiaInv.readIcr {c : Cia} (h : CiaInv c) : CiaInv c.readIcr.2 :=
  ⟨BitVec.getLsbD_zero, h.strobeA, h.strobeB, by simp [Cia.readIcr], h.time, h.alarm, h.snapshot⟩

theorem CiaInv.compareAlarm {c : Cia} (h : CiaInv c) (old : Tod) : CiaInv (c.compareAlarm old) := by
  unfold Cia.compareAlarm
  split
  · exact CiaInv.recompose (getLsbD_or_keep _ h.flagPin rfl) h.strobeA h.strobeB h.time h.alarm h.snapshot
  · exact h

/-- What the counters of a check keep: all of the invariant but the composite, which the check recomputes last. -/
structure CiaCounting (c : Cia) : Prop where
  flagPin : c.icrLatch.getLsbD 4 = false
  strobeA : c.cra.getLsbD 4 = false
  strobeB : c.crb.getLsbD 4 = false
  time : TodInv c.tod
  alarm : TodInv c.alarm
  snapshot : TodInv c.todSnap

theorem CiaCounting.advanceA {c : Cia} (h : CiaCounting c) (delta : Nat) : CiaCounting (c.advanceA delta).1 := by
  unfold Cia.advanceA
  split
  · split
    · refine ⟨getLsbD_or_keep _ h.flagPin rfl, ?_, h.strobeB, h.time, h.alarm, h.snapshot⟩
      simp only
      split
      · exact getLsbD_and_keep _ h.strobeA
      · exact h.strobeA
    · exact ⟨h.flagPin, h.strobeA, h.strobeB, h.time, h.alarm, h.snapshot⟩
  · exact h

theorem CiaCounting.advanceSerial {c : Cia} (h : CiaCounting c) (u : Bool) : CiaCounting (c.advanceSerial u) := by
  unfold Cia.advanceSerial
  split
  · refine ⟨?_, h.strobeA, h.strobeB, h.time, h.alarm, h.snapshot⟩
    simp only
    split
    · exact getLsbD_or_keep _ h.flagPin rfl
    · exact h.flagPin
  · exact h

theorem CiaCounting.advanceB {c : Cia} (h : CiaCounting c) (u : Bool) (delta : Nat) : CiaCounting (c.advanceB u delta) := by
  unfold Cia.advanceB
  simp only
  split
  · split
    · refine ⟨getLsbD_or_keep _ h.flagPin rfl, h.strobeA, ?_, h.time, h.alarm, h.snapshot⟩
      simp only
      split
      · exact getLsbD_and_keep _ h.strobeB
      · exact h.strobeB
    · exact ⟨h.flagPin, h.strobeA, h.strobeB, h.time, h.alarm, h.snapshot⟩
  · exact h

theorem CiaInv.advance {c : Cia} (h : CiaInv c) (delta : Nat) : CiaInv (c.advance delta) := by
  have k : CiaCounting c := ⟨h.flagPin, h.strobeA, h.strobeB, h.time, h.alarm, h.snapshot⟩
  have k' := ((k.advanceA delta).advanceSerial (c.advanceA delta).2).advanceB (c.advanceA delta).2 delta
  exact CiaInv.recompose k'.flagPin k'.strobeA k'.strobeB k'.time k'.alarm k'.snapshot

/-- A host's tick changes the named controller and the draws alone (R550). -/
theorem todTick_state (id : CiaId) (s : State) :
    todTick id s =
      { s with cia1 := (todTick id s).cia1, cia2 := (todTick id s).cia2, draws := (todTick id s).draws } := by
  unfold todTick
  simp only
  split
  · rw [todInc_state]
    cases id <;> rfl
  · rfl

theorem todTick_cia {s : State} (h1 : CiaInv s.cia1) (h2 : CiaInv s.cia2) (id : CiaId) :
    CiaInv (todTick id s).cia1 ∧ CiaInv (todTick id s).cia2 := by
  have tick : ∀ {c : Cia}, CiaInv c → ∀ old, CiaInv (Cia.compareAlarm { c with tod := (todInc c.tod s).1 } old) := by
    intro c hc old
    refine CiaInv.compareAlarm (c := { c with tod := (todInc c.tod s).1 }) ?_ old
    exact ⟨hc.flagPin, hc.strobeA, hc.strobeB, hc.composite, hc.time.inc s, hc.alarm, hc.snapshot⟩
  unfold todTick
  simp only
  split
  · rw [todInc_state]
    cases id
    · exact ⟨tick h1 _, h2⟩
    · exact ⟨h1, tick h2 _⟩
  · exact ⟨h1, h2⟩

/-! The sound engine. -/

theorem VoiceInv.of_same {v w : Voice} (h : VoiceInv v) (he : w.env = v.env) (hh : w.holdZero = v.holdZero) (hl : w.lfsr = v.lfsr) :
    VoiceInv w where
  hold := by rw [he, hh]; exact h.hold
  noise := hl ▸ h.noise

theorem VoiceInv.gateTest {v : Voice} (h : VoiceInv v) (r : VoiceRegs) : VoiceInv (v.gateTest r) := by
  unfold Voice.gateTest
  simp only
  repeat' split
  · exact ⟨by simp, h.noise⟩
  · exact h.of_same rfl rfl rfl
  · exact h.of_same rfl rfl rfl

theorem VoiceInv.envStep {v : Voice} (h : VoiceInv v) (r : VoiceRegs) : VoiceInv (v.envStep r) := by
  unfold Voice.envStep
  split
  · exact h
  · exact ⟨by simp, h.noise⟩

theorem VoiceInv.envelope {v : Voice} (h : VoiceInv v) (r : VoiceRegs) : VoiceInv (v.envelope r) := by
  unfold Voice.envelope
  repeat' split
  · exact h.of_same rfl rfl rfl
  · unfold Voice.rateTick
    repeat' split
    · exact VoiceInv.envStep (v := { v with rateCounter := 0 }) (h.of_same rfl rfl rfl) r
    · exact VoiceInv.envStep (v := { v with rateCounter := 0, expCounter := 0 }) (h.of_same rfl rfl rfl) r
    · exact h.of_same rfl rfl rfl
  · exact h.of_same rfl rfl rfl

theorem lfsr_shift_ne_zero {l : BitVec 23} (h : l ≠ 0) :
    (l <<< 1) ||| (BitVec.ofBool (l.getLsbD 22 != l.getLsbD 17)).setWidth 23 ≠ 0 := by
  intro e
  apply h
  have bit : ∀ k, k < 22 → l.getLsbD k = false := by
    intro k hk
    have := congrArg (fun b => b.getLsbD (k + 1)) e
    simp at this
    exact this (by omega)
  have low := congrArg (fun b => b.getLsbD 0) e
  simp at low
  ext k hk
  rcases Nat.lt_or_ge k 22 with hlt | hge
  · have := bit k hlt
    rw [BitVec.getLsbD_eq_getElem hk] at this
    rw [this]
    simp
  · have : k = 22 := by omega
    subst this
    have h17 := bit 17 (by omega)
    simp_all

theorem VoiceInv.clock {v : Voice} (h : VoiceInv v) (r : VoiceRegs) : VoiceInv (v.clock r) := by
  have k := (h.gateTest r).envelope r
  have k2 : VoiceInv (((v.gateTest r).envelope r).oscillate r) := k.of_same rfl rfl rfl
  refine ⟨k2.hold, ?_⟩
  show Voice.lfsr (Voice.noiseShift _) ≠ 0
  unfold Voice.noiseShift
  simp only
  split
  · exact lfsr_shift_ne_zero k2.noise
  · exact k2.noise

theorem ChipInv.clock {c : SidChip} (h : ChipInv c) : ChipInv c.clock where
  voice0 := (h.voice0.clock (c.voiceRegs 0)).of_same rfl rfl rfl
  voice1 := (h.voice1.clock (c.voiceRegs 1)).of_same rfl rfl rfl
  voice2 := (h.voice2.clock (c.voiceRegs 2)).of_same rfl rfl rfl

theorem ChipInv.sample {c : SidChip} (h : ChipInv c) (m : SidModel) : ChipInv (c.sample m).1 where
  voice0 := h.voice0.of_same rfl rfl rfl
  voice1 := h.voice1.of_same rfl rfl rfl
  voice2 := h.voice2.of_same rfl rfl rfl

theorem SidInv.cycle {d : Sid} (h : SidInv d) (hz : Nat) : SidInv (d.cycle hz).1 := by
  unfold Sid.cycle
  simp only
  split
  · unfold Sid.appendRing
    simp only
    split
    · exact ⟨h.chip0.clock.sample _, h.chip1.clock.sample _, h.chip2.clock.sample _, by simp⟩
    · exact ⟨h.chip0.clock.sample _, h.chip1.clock.sample _, h.chip2.clock.sample _, by simp only; omega⟩
  · exact ⟨h.chip0.clock, h.chip1.clock, h.chip2.clock, h.ring⟩

theorem SidInv.run {d : Sid} (h : SidInv d) (hz n : Nat) : SidInv (Sid.run hz n d).1 := by
  induction n generalizing d with
  | zero => exact h
  | succ n ih => exact ih (h.cycle hz)

/-- The registers of a sound chip that a line of sound keeps. -/
theorem Sid.run_regs (hz n : Nat) (d : Sid) :
    (Sid.run hz n d).1.chip0.regs = d.chip0.regs ∧ (Sid.run hz n d).1.chip1.regs = d.chip1.regs ∧
      (Sid.run hz n d).1.chip2.regs = d.chip2.regs := by
  have one : ∀ d : Sid, (d.cycle hz).1.chip0.regs = d.chip0.regs ∧ (d.cycle hz).1.chip1.regs = d.chip1.regs ∧
      (d.cycle hz).1.chip2.regs = d.chip2.regs := by
    intro d
    unfold Sid.cycle
    simp only
    split
    · unfold Sid.appendRing
      simp only
      split <;> exact ⟨rfl, rfl, rfl⟩
    · exact ⟨rfl, rfl, rfl⟩
  induction n generalizing d with
  | zero => exact ⟨rfl, rfl, rfl⟩
  | succ n ih =>
    have a := ih (d.cycle hz).1
    have b := one d
    exact ⟨a.1.trans b.1, a.2.1.trans b.2.1, a.2.2.trans b.2.2⟩

theorem sidWrite_inv {s : State} (h : SidInv s.sid) (o v : Byte) : SidInv (sidWrite o v s).sid := by
  unfold sidWrite Sid.setChip Sid.chip
  simp only
  split
  · exact ⟨⟨h.chip0.voice0, h.chip0.voice1, h.chip0.voice2⟩, h.chip1, h.chip2, h.ring⟩
  · exact ⟨h.chip0, ⟨h.chip1.voice0, h.chip1.voice1, h.chip1.voice2⟩, h.chip2, h.ring⟩
  · exact ⟨h.chip0, h.chip1, ⟨h.chip2.voice0, h.chip2.voice1, h.chip2.voice2⟩, h.ring⟩

end Sys2Proof.Machine
end

