-- ==== Sys2Proof/Laws/Meaning.lean ====
section
/-! SUPPORT. What an instruction does, by its mnemonic: the 152 meanings are the 57 of the mnemonics, applied to the opcode and
the form of the instruction. -/

namespace Sys2Proof

/-- The operand byte of a form that holds one. -/
def Mode.byte : Mode → Byte
  | .imm v | .zp v | .zpx v | .zpy v | .indx v | .indy v | .rel v => v
  | _ => 0

/-- The operand word of a form that holds one. -/
def Mode.word : Mode → Word
  | .abs a | .absx a | .absy a | .ind a => a
  | _ => 0

end Sys2Proof

namespace Sys2Proof.Machine

/-- What the instruction of a mnemonic, an opcode and a form does. -/
def meaning (n : Mnemonic) (op : Byte) (m : Mode) (s : State) : Result :=
  match n with
  | .lda => ldaInstr op m s
  | .ldx => ldxInstr op m s
  | .ldy => ldyInstr op m s
  | .sta => staInstr op m s
  | .stx => stxInstr op m s
  | .sty => styInstr op m s
  | .adc => adcInstr op m s
  | .sbc => sbcInstr op m s
  | .cmp => cmpInstr op m s
  | .cpx => cpxInstr op m s
  | .cpy => cpyInstr op m s
  | .inc => incInstr op m s
  | .dec => decInstr op m s
  | .and => andInstr op m s
  | .ora => oraInstr op m s
  | .eor => eorInstr op m s
  | .bit => bitInstr op m s
  | .asl => aslInstr op m s
  | .lsr => lsrInstr op m s
  | .rol => rolInstr op m s
  | .ror => rorInstr op m s
  | .tax => execTax s
  | .tay => execTay s
  | .txa => execTxa s
  | .tya => execTya s
  | .tsx => execTsx s
  | .txs => execTxs s
  | .pha => execPha s
  | .php => execPhp s
  | .pla => execPla s
  | .plp => execPlp s
  | .inx => execInx s
  | .iny => execIny s
  | .dex => execDex s
  | .dey => execDey s
  | .rts => execRts s
  | .brk => execBrk s
  | .rti => execRti s
  | .nop => execNop s
  | .clc => execClc s
  | .cld => execCld s
  | .cli => execCli s
  | .clv => execClv s
  | .sec => execSec s
  | .sed => execSed s
  | .sei => execSei s
  | .bcc => execBcc m.byte s
  | .bcs => execBcs m.byte s
  | .beq => execBeq m.byte s
  | .bmi => execBmi m.byte s
  | .bne => execBne m.byte s
  | .bpl => execBpl m.byte s
  | .bvc => execBvc m.byte s
  | .bvs => execBvs m.byte s
  | .jsr => execJsr m.word s
  | .jmp =>
    match m with
    | .ind a => execJmpInd a s
    | m => execJmpAbs m.word s
  | .illegal => execIllegal op s

/-- An instruction does what its mnemonic does. -/
theorem exec_meaning (i : Instr) (s : State) : exec i s = meaning i.mnemonic i.opcode i.mode s := by
  cases i <;> rfl

variable {i : Instr}

theorem exec_lda (h : i.mnemonic = .lda) (s : State) : exec i s = ldaInstr i.opcode i.mode s := by
  rw [exec_meaning, h]
  rfl

theorem exec_ldx (h : i.mnemonic = .ldx) (s : State) : exec i s = ldxInstr i.opcode i.mode s := by
  rw [exec_meaning, h]
  rfl

theorem exec_ldy (h : i.mnemonic = .ldy) (s : State) : exec i s = ldyInstr i.opcode i.mode s := by
  rw [exec_meaning, h]
  rfl

theorem exec_sta (h : i.mnemonic = .sta) (s : State) : exec i s = staInstr i.opcode i.mode s := by
  rw [exec_meaning, h]
  rfl

theorem exec_stx (h : i.mnemonic = .stx) (s : State) : exec i s = stxInstr i.opcode i.mode s := by
  rw [exec_meaning, h]
  rfl

theorem exec_sty (h : i.mnemonic = .sty) (s : State) : exec i s = styInstr i.opcode i.mode s := by
  rw [exec_meaning, h]
  rfl

theorem exec_adc (h : i.mnemonic = .adc) (s : State) : exec i s = adcInstr i.opcode i.mode s := by
  rw [exec_meaning, h]
  rfl

theorem exec_sbc (h : i.mnemonic = .sbc) (s : State) : exec i s = sbcInstr i.opcode i.mode s := by
  rw [exec_meaning, h]
  rfl

theorem exec_cmp (h : i.mnemonic = .cmp) (s : State) : exec i s = cmpInstr i.opcode i.mode s := by
  rw [exec_meaning, h]
  rfl

theorem exec_cpx (h : i.mnemonic = .cpx) (s : State) : exec i s = cpxInstr i.opcode i.mode s := by
  rw [exec_meaning, h]
  rfl

theorem exec_cpy (h : i.mnemonic = .cpy) (s : State) : exec i s = cpyInstr i.opcode i.mode s := by
  rw [exec_meaning, h]
  rfl

theorem exec_inc (h : i.mnemonic = .inc) (s : State) : exec i s = incInstr i.opcode i.mode s := by
  rw [exec_meaning, h]
  rfl

theorem exec_dec (h : i.mnemonic = .dec) (s : State) : exec i s = decInstr i.opcode i.mode s := by
  rw [exec_meaning, h]
  rfl

theorem exec_and (h : i.mnemonic = .and) (s : State) : exec i s = andInstr i.opcode i.mode s := by
  rw [exec_meaning, h]
  rfl

theorem exec_ora (h : i.mnemonic = .ora) (s : State) : exec i s = oraInstr i.opcode i.mode s := by
  rw [exec_meaning, h]
  rfl

theorem exec_eor (h : i.mnemonic = .eor) (s : State) : exec i s = eorInstr i.opcode i.mode s := by
  rw [exec_meaning, h]
  rfl

theorem exec_bit (h : i.mnemonic = .bit) (s : State) : exec i s = bitInstr i.opcode i.mode s := by
  rw [exec_meaning, h]
  rfl

theorem exec_asl (h : i.mnemonic = .asl) (s : State) : exec i s = aslInstr i.opcode i.mode s := by
  rw [exec_meaning, h]
  rfl

theorem exec_lsr (h : i.mnemonic = .lsr) (s : State) : exec i s = lsrInstr i.opcode i.mode s := by
  rw [exec_meaning, h]
  rfl

theorem exec_rol (h : i.mnemonic = .rol) (s : State) : exec i s = rolInstr i.opcode i.mode s := by
  rw [exec_meaning, h]
  rfl

theorem exec_ror (h : i.mnemonic = .ror) (s : State) : exec i s = rorInstr i.opcode i.mode s := by
  rw [exec_meaning, h]
  rfl

end Sys2Proof.Machine
end

