-- ==== Sys2Proof/Laws/Operands.lean ====
section
/-! SUPPORT. What reading an operand and writing the bus can do, in the terms of Safety.lean: the frame of an operand read, the
frame of a bus write, and the pointers of page 0. -/

namespace Sys2Proof.Machine

/-- What an operand read can change (R123, R181): what a bus read can. -/
theorem readOperand_state (m : Mode) (s : State) :
    (readOperand m s).2 =
      { s with
        vic := (readOperand m s).2.vic, cia1 := (readOperand m s).2.cia1, cia2 := (readOperand m s).2.cia2
        nmiAck := (readOperand m s).2.nmiAck, draws := (readOperand m s).2.draws } := by
  unfold readOperand
  split
  · rfl
  · rfl
  · exact busRead_state _ _

@[simp] theorem readOperand_a (m : Mode) (s : State) : (readOperand m s).2.a = s.a := by
  have h := congrArg State.a (readOperand_state m s)
  exact h

@[simp] theorem readOperand_x (m : Mode) (s : State) : (readOperand m s).2.x = s.x := by
  have h := congrArg State.x (readOperand_state m s)
  exact h

@[simp] theorem readOperand_y (m : Mode) (s : State) : (readOperand m s).2.y = s.y := by
  have h := congrArg State.y (readOperand_state m s)
  exact h

@[simp] theorem readOperand_sp (m : Mode) (s : State) : (readOperand m s).2.sp = s.sp := by
  have h := congrArg State.sp (readOperand_state m s)
  exact h

@[simp] theorem readOperand_pc (m : Mode) (s : State) : (readOperand m s).2.pc = s.pc := by
  have h := congrArg State.pc (readOperand_state m s)
  exact h

@[simp] theorem readOperand_p (m : Mode) (s : State) : (readOperand m s).2.p = s.p := by
  have h := congrArg State.p (readOperand_state m s)
  exact h

@[simp] theorem readOperand_halted (m : Mode) (s : State) : (readOperand m s).2.halted = s.halted := by
  have h := congrArg State.halted (readOperand_state m s)
  exact h

@[simp] theorem readOperand_haltPC (m : Mode) (s : State) : (readOperand m s).2.haltPC = s.haltPC := by
  have h := congrArg State.haltPC (readOperand_state m s)
  exact h

@[simp] theorem readOperand_haltOp (m : Mode) (s : State) : (readOperand m s).2.haltOp = s.haltOp := by
  have h := congrArg State.haltOp (readOperand_state m s)
  exact h

@[simp] theorem readOperand_lineCycles (m : Mode) (s : State) : (readOperand m s).2.lineCycles = s.lineCycles := by
  have h := congrArg State.lineCycles (readOperand_state m s)
  exact h

@[simp] theorem readOperand_sinceCheck (m : Mode) (s : State) : (readOperand m s).2.sinceCheck = s.sinceCheck := by
  have h := congrArg State.sinceCheck (readOperand_state m s)
  exact h

@[simp] theorem readOperand_phase (m : Mode) (s : State) : (readOperand m s).2.phase = s.phase := by
  have h := congrArg State.phase (readOperand_state m s)
  exact h

@[simp] theorem readOperand_ram (m : Mode) (s : State) : (readOperand m s).2.ram = s.ram := by
  have h := congrArg State.ram (readOperand_state m s)
  exact h

@[simp] theorem readOperand_bankByte (m : Mode) (s : State) : (readOperand m s).2.bankByte = s.bankByte := by
  have h := congrArg State.bankByte (readOperand_state m s)
  exact h

@[simp] theorem readOperand_color (m : Mode) (s : State) : (readOperand m s).2.color = s.color := by
  have h := congrArg State.color (readOperand_state m s)
  exact h

@[simp] theorem readOperand_sid (m : Mode) (s : State) : (readOperand m s).2.sid = s.sid := by
  have h := congrArg State.sid (readOperand_state m s)
  exact h

@[simp] theorem readOperand_inject (m : Mode) (s : State) : (readOperand m s).2.inject = s.inject := by
  have h := congrArg State.inject (readOperand_state m s)
  exact h

@[simp] theorem readOperand_hostPlan (m : Mode) (s : State) : (readOperand m s).2.hostPlan = s.hostPlan := by
  have h := congrArg State.hostPlan (readOperand_state m s)
  exact h

@[simp] theorem readOperand_cfg (m : Mode) (s : State) : (readOperand m s).2.cfg = s.cfg := by
  have h := congrArg State.cfg (readOperand_state m s)
  exact h

/-- The byte of page 0 that a pointer byte is (R175, R176). -/
theorem zeroPageByte_eq (z : Byte) (s : State) : zeroPageByte z s = zeroPageAt s z := by
  unfold zeroPageByte zeroPageAt
  rw [busRead_zeroPage]

/-- A pointer of page 0: both bytes in page 0 (R175, R176). -/
theorem zeroPagePointer_eq (z : Byte) (s : State) :
    zeroPagePointer z s = wordOf (zeroPageAt s z) (zeroPageAt s (z + 1#8)) := by
  unfold zeroPagePointer
  rw [zeroPageByte_eq, zeroPageByte_eq]

/-- Moving PC does not move an operand. -/
@[simp] theorem effectiveAddress_stepOver (m n : Mode) (s : State) : effectiveAddress m (stepOver n s) = effectiveAddress m s := by
  unfold effectiveAddress baseAddress
  repeat' split
  all_goals first
    | rfl
    | (simp only [zeroPagePointer_eq]; rfl)

/-- The frame of a bus write (R112 to R118). -/
theorem busWrite_writtenAt (a : Word) (v : Byte) (s : State) : WrittenAt a s (busWrite a v s) := by
  have plain : ∀ v, WrittenAt a s (s.setRam a v) := fun v =>
    { ram := fun b hb => Memory.read_write_ne _ hb v
      color := fun _ _ => rfl
      bank := fun _ => rfl
      vic := fun _ => rfl
      sid := fun _ => rfl
      cia1 := fun _ => rfl
      cia2 := fun _ => rfl
      nmiAck := rfl
      draws := rfl }
  unfold busWrite
  split
  · rename_i h
    have ha : a = 1#16 := by
      unfold writeRoute at h
      split at h
      · assumption
      · split at h <;> cases h
    exact
      { ram := (plain v).ram
        color := fun _ _ => rfl
        bank := fun hne => absurd ha hne
        vic := fun _ => rfl
        sid := fun _ => rfl
        cia1 := fun _ => rfl
        cia2 := fun _ => rfl
        nmiAck := rfl
        draws := rfl }
  · rename_i h
    have hio : 0xD000 ≤ a.toNat := by
      unfold writeRoute at h
      split at h
      · cases h
      · split at h
        · rename_i hf
          simp only [inIoRange, Bool.and_eq_true, decide_eq_true_eq] at hf
          exact hf.2.1
        · cases h
    unfold ioWrite sidWrite
    simp only
    repeat' split
    all_goals refine ⟨?_, ?_, ?_, ?_, ?_, ?_, ?_, ?_, ?_⟩
    all_goals first
      | (intros; rfl)
      | rfl
      | (intro h; exact absurd h (by omega))
      | skip
    intro k hk
    exact Memory.read_write_ne _ (by omega) _
  · exact plain v

/-- A read back of a RAM byte just written (R130). -/
theorem busWrite_ram_self {a : Word} {v : Byte} {s : State} (h : writeRoute s.visible a ≠ .io) :
    (busWrite a v s).ram.read a.toNat = v := by
  unfold busWrite
  split
  · exact Memory.read_write_self _ _ _
  · contradiction
  · exact Memory.read_write_self _ _ _

/-- Moving PC does not move a bus write. -/
theorem busWrite_setPC (a : Word) (v : Byte) (s : State) (pc : Word) :
    busWrite a v (s.setPC pc) = (busWrite a v s).setPC pc := by
  have hv : (s.setPC pc).visible = s.visible := rfl
  unfold busWrite
  rw [hv]
  cases writeRoute s.visible a with
  | io =>
    simp only [ioWrite, sidWrite]
    repeat' split
    all_goals rfl
  | _ => rfl

end Sys2Proof.Machine
end

