-- ==== Sys2Proof/Laws/PerInstr.lean ====
section
/-! SUPPORT. What is said of every instruction as syntax, a lemma for each constructor: the decoder reads a well-formed
instruction's own bytes as that instruction, every operand at every value (30_encoding R160 to R168). -/

namespace Sys2Proof.Laws

/-- The two bytes of a word, joined again. -/
theorem wordOf_bytes (a : Word) : wordOf (loByte a) (hiByte a) = a := by
  unfold wordOf loByte hiByte
  ext i hi
  simp only [BitVec.getElem_append, BitVec.getElem_extractLsb']
  split
  · simp [BitVec.getLsbD, BitVec.getElem_eq_testBit_toNat]
  · simp only [BitVec.getLsbD, BitVec.getElem_eq_testBit_toNat]
    congr 1
    omega

/-- The operand byte `k` of an instruction, 0 where it has fewer. -/
def operandByte (i : Instr) (k : Nat) : Byte := i.mode.operandBytes.getD k 0

/-- The decoder reads the opcode and operand bytes of a well-formed instruction as that instruction. -/
def Encoding.Statement (i : Instr) : Prop :=
  i.wellFormed = true → decodeBytes i.opcode (operandByte i 0) (operandByte i 1) = i

/-- The decoder reads each byte of R168 as `illegal`, whatever follows it. -/
theorem illegal_decodes (op : Byte) (h : op ∈ illegalOpcodes) (b1 b2 : Byte) : decodeBytes op b1 b2 = .illegal op := by
  revert op
  simp only [illegalOpcodes, List.cons_append, List.nil_append, List.forall_mem_cons, List.not_mem_nil, false_implies,
    implies_true, and_true]
  repeat' constructor

namespace Encoding

theorem ldaImm (v : Byte) : Statement (.ldaImm v) := fun _ =>
  show decodeBytes 0xA9#8 v 0 = _ from rfl
theorem ldaZp (z : Byte) : Statement (.ldaZp z) := fun _ =>
  show decodeBytes 0xA5#8 z 0 = _ from rfl
theorem ldaZpx (z : Byte) : Statement (.ldaZpx z) := fun _ =>
  show decodeBytes 0xB5#8 z 0 = _ from rfl
theorem ldaAbs (a : Word) : Statement (.ldaAbs a) := fun _ =>
  show decodeBytes 0xAD#8 (loByte a) (hiByte a) = _ from congrArg Instr.ldaAbs (wordOf_bytes a)
theorem ldaAbsx (a : Word) : Statement (.ldaAbsx a) := fun _ =>
  show decodeBytes 0xBD#8 (loByte a) (hiByte a) = _ from congrArg Instr.ldaAbsx (wordOf_bytes a)
theorem ldaAbsy (a : Word) : Statement (.ldaAbsy a) := fun _ =>
  show decodeBytes 0xB9#8 (loByte a) (hiByte a) = _ from congrArg Instr.ldaAbsy (wordOf_bytes a)
theorem ldaIndx (z : Byte) : Statement (.ldaIndx z) := fun _ =>
  show decodeBytes 0xA1#8 z 0 = _ from rfl
theorem ldaIndy (z : Byte) : Statement (.ldaIndy z) := fun _ =>
  show decodeBytes 0xB1#8 z 0 = _ from rfl
theorem ldxImm (v : Byte) : Statement (.ldxImm v) := fun _ =>
  show decodeBytes 0xA2#8 v 0 = _ from rfl
theorem ldxZp (z : Byte) : Statement (.ldxZp z) := fun _ =>
  show decodeBytes 0xA6#8 z 0 = _ from rfl
theorem ldxZpy (z : Byte) : Statement (.ldxZpy z) := fun _ =>
  show decodeBytes 0xB6#8 z 0 = _ from rfl
theorem ldxAbs (a : Word) : Statement (.ldxAbs a) := fun _ =>
  show decodeBytes 0xAE#8 (loByte a) (hiByte a) = _ from congrArg Instr.ldxAbs (wordOf_bytes a)
theorem ldxAbsy (a : Word) : Statement (.ldxAbsy a) := fun _ =>
  show decodeBytes 0xBE#8 (loByte a) (hiByte a) = _ from congrArg Instr.ldxAbsy (wordOf_bytes a)
theorem ldyImm (v : Byte) : Statement (.ldyImm v) := fun _ =>
  show decodeBytes 0xA0#8 v 0 = _ from rfl
theorem ldyZp (z : Byte) : Statement (.ldyZp z) := fun _ =>
  show decodeBytes 0xA4#8 z 0 = _ from rfl
theorem ldyZpx (z : Byte) : Statement (.ldyZpx z) := fun _ =>
  show decodeBytes 0xB4#8 z 0 = _ from rfl
theorem ldyAbs (a : Word) : Statement (.ldyAbs a) := fun _ =>
  show decodeBytes 0xAC#8 (loByte a) (hiByte a) = _ from congrArg Instr.ldyAbs (wordOf_bytes a)
theorem ldyAbsx (a : Word) : Statement (.ldyAbsx a) := fun _ =>
  show decodeBytes 0xBC#8 (loByte a) (hiByte a) = _ from congrArg Instr.ldyAbsx (wordOf_bytes a)
theorem staZp (z : Byte) : Statement (.staZp z) := fun _ =>
  show decodeBytes 0x85#8 z 0 = _ from rfl
theorem staZpx (z : Byte) : Statement (.staZpx z) := fun _ =>
  show decodeBytes 0x95#8 z 0 = _ from rfl
theorem staAbs (a : Word) : Statement (.staAbs a) := fun _ =>
  show decodeBytes 0x8D#8 (loByte a) (hiByte a) = _ from congrArg Instr.staAbs (wordOf_bytes a)
theorem staAbsx (a : Word) : Statement (.staAbsx a) := fun _ =>
  show decodeBytes 0x9D#8 (loByte a) (hiByte a) = _ from congrArg Instr.staAbsx (wordOf_bytes a)
theorem staAbsy (a : Word) : Statement (.staAbsy a) := fun _ =>
  show decodeBytes 0x99#8 (loByte a) (hiByte a) = _ from congrArg Instr.staAbsy (wordOf_bytes a)
theorem staIndx (z : Byte) : Statement (.staIndx z) := fun _ =>
  show decodeBytes 0x81#8 z 0 = _ from rfl
theorem staIndy (z : Byte) : Statement (.staIndy z) := fun _ =>
  show decodeBytes 0x91#8 z 0 = _ from rfl
theorem stxZp (z : Byte) : Statement (.stxZp z) := fun _ =>
  show decodeBytes 0x86#8 z 0 = _ from rfl
theorem stxZpy (z : Byte) : Statement (.stxZpy z) := fun _ =>
  show decodeBytes 0x96#8 z 0 = _ from rfl
theorem stxAbs (a : Word) : Statement (.stxAbs a) := fun _ =>
  show decodeBytes 0x8E#8 (loByte a) (hiByte a) = _ from congrArg Instr.stxAbs (wordOf_bytes a)
theorem styZp (z : Byte) : Statement (.styZp z) := fun _ =>
  show decodeBytes 0x84#8 z 0 = _ from rfl
theorem styZpx (z : Byte) : Statement (.styZpx z) := fun _ =>
  show decodeBytes 0x94#8 z 0 = _ from rfl
theorem styAbs (a : Word) : Statement (.styAbs a) := fun _ =>
  show decodeBytes 0x8C#8 (loByte a) (hiByte a) = _ from congrArg Instr.styAbs (wordOf_bytes a)
theorem tax : Statement (.tax) := fun _ =>
  show decodeBytes 0xAA#8 0 0 = _ from rfl
theorem tay : Statement (.tay) := fun _ =>
  show decodeBytes 0xA8#8 0 0 = _ from rfl
theorem txa : Statement (.txa) := fun _ =>
  show decodeBytes 0x8A#8 0 0 = _ from rfl
theorem tya : Statement (.tya) := fun _ =>
  show decodeBytes 0x98#8 0 0 = _ from rfl
theorem tsx : Statement (.tsx) := fun _ =>
  show decodeBytes 0xBA#8 0 0 = _ from rfl
theorem txs : Statement (.txs) := fun _ =>
  show decodeBytes 0x9A#8 0 0 = _ from rfl
theorem pha : Statement (.pha) := fun _ =>
  show decodeBytes 0x48#8 0 0 = _ from rfl
theorem php : Statement (.php) := fun _ =>
  show decodeBytes 0x08#8 0 0 = _ from rfl
theorem pla : Statement (.pla) := fun _ =>
  show decodeBytes 0x68#8 0 0 = _ from rfl
theorem plp : Statement (.plp) := fun _ =>
  show decodeBytes 0x28#8 0 0 = _ from rfl
theorem adcImm (v : Byte) : Statement (.adcImm v) := fun _ =>
  show decodeBytes 0x69#8 v 0 = _ from rfl
theorem adcZp (z : Byte) : Statement (.adcZp z) := fun _ =>
  show decodeBytes 0x65#8 z 0 = _ from rfl
theorem adcZpx (z : Byte) : Statement (.adcZpx z) := fun _ =>
  show decodeBytes 0x75#8 z 0 = _ from rfl
theorem adcAbs (a : Word) : Statement (.adcAbs a) := fun _ =>
  show decodeBytes 0x6D#8 (loByte a) (hiByte a) = _ from congrArg Instr.adcAbs (wordOf_bytes a)
theorem adcAbsx (a : Word) : Statement (.adcAbsx a) := fun _ =>
  show decodeBytes 0x7D#8 (loByte a) (hiByte a) = _ from congrArg Instr.adcAbsx (wordOf_bytes a)
theorem adcAbsy (a : Word) : Statement (.adcAbsy a) := fun _ =>
  show decodeBytes 0x79#8 (loByte a) (hiByte a) = _ from congrArg Instr.adcAbsy (wordOf_bytes a)
theorem adcIndx (z : Byte) : Statement (.adcIndx z) := fun _ =>
  show decodeBytes 0x61#8 z 0 = _ from rfl
theorem adcIndy (z : Byte) : Statement (.adcIndy z) := fun _ =>
  show decodeBytes 0x71#8 z 0 = _ from rfl
theorem sbcImm (v : Byte) : Statement (.sbcImm v) := fun _ =>
  show decodeBytes 0xE9#8 v 0 = _ from rfl
theorem sbcZp (z : Byte) : Statement (.sbcZp z) := fun _ =>
  show decodeBytes 0xE5#8 z 0 = _ from rfl
theorem sbcZpx (z : Byte) : Statement (.sbcZpx z) := fun _ =>
  show decodeBytes 0xF5#8 z 0 = _ from rfl
theorem sbcAbs (a : Word) : Statement (.sbcAbs a) := fun _ =>
  show decodeBytes 0xED#8 (loByte a) (hiByte a) = _ from congrArg Instr.sbcAbs (wordOf_bytes a)
theorem sbcAbsx (a : Word) : Statement (.sbcAbsx a) := fun _ =>
  show decodeBytes 0xFD#8 (loByte a) (hiByte a) = _ from congrArg Instr.sbcAbsx (wordOf_bytes a)
theorem sbcAbsy (a : Word) : Statement (.sbcAbsy a) := fun _ =>
  show decodeBytes 0xF9#8 (loByte a) (hiByte a) = _ from congrArg Instr.sbcAbsy (wordOf_bytes a)
theorem sbcIndx (z : Byte) : Statement (.sbcIndx z) := fun _ =>
  show decodeBytes 0xE1#8 z 0 = _ from rfl
theorem sbcIndy (z : Byte) : Statement (.sbcIndy z) := fun _ =>
  show decodeBytes 0xF1#8 z 0 = _ from rfl
theorem cmpImm (v : Byte) : Statement (.cmpImm v) := fun _ =>
  show decodeBytes 0xC9#8 v 0 = _ from rfl
theorem cmpZp (z : Byte) : Statement (.cmpZp z) := fun _ =>
  show decodeBytes 0xC5#8 z 0 = _ from rfl
theorem cmpZpx (z : Byte) : Statement (.cmpZpx z) := fun _ =>
  show decodeBytes 0xD5#8 z 0 = _ from rfl
theorem cmpAbs (a : Word) : Statement (.cmpAbs a) := fun _ =>
  show decodeBytes 0xCD#8 (loByte a) (hiByte a) = _ from congrArg Instr.cmpAbs (wordOf_bytes a)
theorem cmpAbsx (a : Word) : Statement (.cmpAbsx a) := fun _ =>
  show decodeBytes 0xDD#8 (loByte a) (hiByte a) = _ from congrArg Instr.cmpAbsx (wordOf_bytes a)
theorem cmpAbsy (a : Word) : Statement (.cmpAbsy a) := fun _ =>
  show decodeBytes 0xD9#8 (loByte a) (hiByte a) = _ from congrArg Instr.cmpAbsy (wordOf_bytes a)
theorem cmpIndx (z : Byte) : Statement (.cmpIndx z) := fun _ =>
  show decodeBytes 0xC1#8 z 0 = _ from rfl
theorem cmpIndy (z : Byte) : Statement (.cmpIndy z) := fun _ =>
  show decodeBytes 0xD1#8 z 0 = _ from rfl
theorem cpxImm (v : Byte) : Statement (.cpxImm v) := fun _ =>
  show decodeBytes 0xE0#8 v 0 = _ from rfl
theorem cpxZp (z : Byte) : Statement (.cpxZp z) := fun _ =>
  show decodeBytes 0xE4#8 z 0 = _ from rfl
theorem cpxAbs (a : Word) : Statement (.cpxAbs a) := fun _ =>
  show decodeBytes 0xEC#8 (loByte a) (hiByte a) = _ from congrArg Instr.cpxAbs (wordOf_bytes a)
theorem cpyImm (v : Byte) : Statement (.cpyImm v) := fun _ =>
  show decodeBytes 0xC0#8 v 0 = _ from rfl
theorem cpyZp (z : Byte) : Statement (.cpyZp z) := fun _ =>
  show decodeBytes 0xC4#8 z 0 = _ from rfl
theorem cpyAbs (a : Word) : Statement (.cpyAbs a) := fun _ =>
  show decodeBytes 0xCC#8 (loByte a) (hiByte a) = _ from congrArg Instr.cpyAbs (wordOf_bytes a)
theorem incZp (z : Byte) : Statement (.incZp z) := fun _ =>
  show decodeBytes 0xE6#8 z 0 = _ from rfl
theorem incZpx (z : Byte) : Statement (.incZpx z) := fun _ =>
  show decodeBytes 0xF6#8 z 0 = _ from rfl
theorem incAbs (a : Word) : Statement (.incAbs a) := fun _ =>
  show decodeBytes 0xEE#8 (loByte a) (hiByte a) = _ from congrArg Instr.incAbs (wordOf_bytes a)
theorem incAbsx (a : Word) : Statement (.incAbsx a) := fun _ =>
  show decodeBytes 0xFE#8 (loByte a) (hiByte a) = _ from congrArg Instr.incAbsx (wordOf_bytes a)
theorem decZp (z : Byte) : Statement (.decZp z) := fun _ =>
  show decodeBytes 0xC6#8 z 0 = _ from rfl
theorem decZpx (z : Byte) : Statement (.decZpx z) := fun _ =>
  show decodeBytes 0xD6#8 z 0 = _ from rfl
theorem decAbs (a : Word) : Statement (.decAbs a) := fun _ =>
  show decodeBytes 0xCE#8 (loByte a) (hiByte a) = _ from congrArg Instr.decAbs (wordOf_bytes a)
theorem decAbsx (a : Word) : Statement (.decAbsx a) := fun _ =>
  show decodeBytes 0xDE#8 (loByte a) (hiByte a) = _ from congrArg Instr.decAbsx (wordOf_bytes a)
theorem inx : Statement (.inx) := fun _ =>
  show decodeBytes 0xE8#8 0 0 = _ from rfl
theorem iny : Statement (.iny) := fun _ =>
  show decodeBytes 0xC8#8 0 0 = _ from rfl
theorem dex : Statement (.dex) := fun _ =>
  show decodeBytes 0xCA#8 0 0 = _ from rfl
theorem dey : Statement (.dey) := fun _ =>
  show decodeBytes 0x88#8 0 0 = _ from rfl
theorem andImm (v : Byte) : Statement (.andImm v) := fun _ =>
  show decodeBytes 0x29#8 v 0 = _ from rfl
theorem andZp (z : Byte) : Statement (.andZp z) := fun _ =>
  show decodeBytes 0x25#8 z 0 = _ from rfl
theorem andZpx (z : Byte) : Statement (.andZpx z) := fun _ =>
  show decodeBytes 0x35#8 z 0 = _ from rfl
theorem andAbs (a : Word) : Statement (.andAbs a) := fun _ =>
  show decodeBytes 0x2D#8 (loByte a) (hiByte a) = _ from congrArg Instr.andAbs (wordOf_bytes a)
theorem andAbsx (a : Word) : Statement (.andAbsx a) := fun _ =>
  show decodeBytes 0x3D#8 (loByte a) (hiByte a) = _ from congrArg Instr.andAbsx (wordOf_bytes a)
theorem andAbsy (a : Word) : Statement (.andAbsy a) := fun _ =>
  show decodeBytes 0x39#8 (loByte a) (hiByte a) = _ from congrArg Instr.andAbsy (wordOf_bytes a)
theorem andIndx (z : Byte) : Statement (.andIndx z) := fun _ =>
  show decodeBytes 0x21#8 z 0 = _ from rfl
theorem andIndy (z : Byte) : Statement (.andIndy z) := fun _ =>
  show decodeBytes 0x31#8 z 0 = _ from rfl
theorem oraImm (v : Byte) : Statement (.oraImm v) := fun _ =>
  show decodeBytes 0x09#8 v 0 = _ from rfl
theorem oraZp (z : Byte) : Statement (.oraZp z) := fun _ =>
  show decodeBytes 0x05#8 z 0 = _ from rfl
theorem oraZpx (z : Byte) : Statement (.oraZpx z) := fun _ =>
  show decodeBytes 0x15#8 z 0 = _ from rfl
theorem oraAbs (a : Word) : Statement (.oraAbs a) := fun _ =>
  show decodeBytes 0x0D#8 (loByte a) (hiByte a) = _ from congrArg Instr.oraAbs (wordOf_bytes a)
theorem oraAbsx (a : Word) : Statement (.oraAbsx a) := fun _ =>
  show decodeBytes 0x1D#8 (loByte a) (hiByte a) = _ from congrArg Instr.oraAbsx (wordOf_bytes a)
theorem oraAbsy (a : Word) : Statement (.oraAbsy a) := fun _ =>
  show decodeBytes 0x19#8 (loByte a) (hiByte a) = _ from congrArg Instr.oraAbsy (wordOf_bytes a)
theorem oraIndx (z : Byte) : Statement (.oraIndx z) := fun _ =>
  show decodeBytes 0x01#8 z 0 = _ from rfl
theorem oraIndy (z : Byte) : Statement (.oraIndy z) := fun _ =>
  show decodeBytes 0x11#8 z 0 = _ from rfl
theorem eorImm (v : Byte) : Statement (.eorImm v) := fun _ =>
  show decodeBytes 0x49#8 v 0 = _ from rfl
theorem eorZp (z : Byte) : Statement (.eorZp z) := fun _ =>
  show decodeBytes 0x45#8 z 0 = _ from rfl
theorem eorZpx (z : Byte) : Statement (.eorZpx z) := fun _ =>
  show decodeBytes 0x55#8 z 0 = _ from rfl
theorem eorAbs (a : Word) : Statement (.eorAbs a) := fun _ =>
  show decodeBytes 0x4D#8 (loByte a) (hiByte a) = _ from congrArg Instr.eorAbs (wordOf_bytes a)
theorem eorAbsx (a : Word) : Statement (.eorAbsx a) := fun _ =>
  show decodeBytes 0x5D#8 (loByte a) (hiByte a) = _ from congrArg Instr.eorAbsx (wordOf_bytes a)
theorem eorAbsy (a : Word) : Statement (.eorAbsy a) := fun _ =>
  show decodeBytes 0x59#8 (loByte a) (hiByte a) = _ from congrArg Instr.eorAbsy (wordOf_bytes a)
theorem eorIndx (z : Byte) : Statement (.eorIndx z) := fun _ =>
  show decodeBytes 0x41#8 z 0 = _ from rfl
theorem eorIndy (z : Byte) : Statement (.eorIndy z) := fun _ =>
  show decodeBytes 0x51#8 z 0 = _ from rfl
theorem bitZp (z : Byte) : Statement (.bitZp z) := fun _ =>
  show decodeBytes 0x24#8 z 0 = _ from rfl
theorem bitAbs (a : Word) : Statement (.bitAbs a) := fun _ =>
  show decodeBytes 0x2C#8 (loByte a) (hiByte a) = _ from congrArg Instr.bitAbs (wordOf_bytes a)
theorem aslZp (z : Byte) : Statement (.aslZp z) := fun _ =>
  show decodeBytes 0x06#8 z 0 = _ from rfl
theorem aslZpx (z : Byte) : Statement (.aslZpx z) := fun _ =>
  show decodeBytes 0x16#8 z 0 = _ from rfl
theorem aslAbs (a : Word) : Statement (.aslAbs a) := fun _ =>
  show decodeBytes 0x0E#8 (loByte a) (hiByte a) = _ from congrArg Instr.aslAbs (wordOf_bytes a)
theorem aslAbsx (a : Word) : Statement (.aslAbsx a) := fun _ =>
  show decodeBytes 0x1E#8 (loByte a) (hiByte a) = _ from congrArg Instr.aslAbsx (wordOf_bytes a)
theorem aslAcc : Statement (.aslAcc) := fun _ =>
  show decodeBytes 0x0A#8 0 0 = _ from rfl
theorem lsrZp (z : Byte) : Statement (.lsrZp z) := fun _ =>
  show decodeBytes 0x46#8 z 0 = _ from rfl
theorem lsrZpx (z : Byte) : Statement (.lsrZpx z) := fun _ =>
  show decodeBytes 0x56#8 z 0 = _ from rfl
theorem lsrAbs (a : Word) : Statement (.lsrAbs a) := fun _ =>
  show decodeBytes 0x4E#8 (loByte a) (hiByte a) = _ from congrArg Instr.lsrAbs (wordOf_bytes a)
theorem lsrAbsx (a : Word) : Statement (.lsrAbsx a) := fun _ =>
  show decodeBytes 0x5E#8 (loByte a) (hiByte a) = _ from congrArg Instr.lsrAbsx (wordOf_bytes a)
theorem lsrAcc : Statement (.lsrAcc) := fun _ =>
  show decodeBytes 0x4A#8 0 0 = _ from rfl
theorem rolZp (z : Byte) : Statement (.rolZp z) := fun _ =>
  show decodeBytes 0x26#8 z 0 = _ from rfl
theorem rolZpx (z : Byte) : Statement (.rolZpx z) := fun _ =>
  show decodeBytes 0x36#8 z 0 = _ from rfl
theorem rolAbs (a : Word) : Statement (.rolAbs a) := fun _ =>
  show decodeBytes 0x2E#8 (loByte a) (hiByte a) = _ from congrArg Instr.rolAbs (wordOf_bytes a)
theorem rolAbsx (a : Word) : Statement (.rolAbsx a) := fun _ =>
  show decodeBytes 0x3E#8 (loByte a) (hiByte a) = _ from congrArg Instr.rolAbsx (wordOf_bytes a)
theorem rolAcc : Statement (.rolAcc) := fun _ =>
  show decodeBytes 0x2A#8 0 0 = _ from rfl
theorem rorZp (z : Byte) : Statement (.rorZp z) := fun _ =>
  show decodeBytes 0x66#8 z 0 = _ from rfl
theorem rorZpx (z : Byte) : Statement (.rorZpx z) := fun _ =>
  show decodeBytes 0x76#8 z 0 = _ from rfl
theorem rorAbs (a : Word) : Statement (.rorAbs a) := fun _ =>
  show decodeBytes 0x6E#8 (loByte a) (hiByte a) = _ from congrArg Instr.rorAbs (wordOf_bytes a)
theorem rorAbsx (a : Word) : Statement (.rorAbsx a) := fun _ =>
  show decodeBytes 0x7E#8 (loByte a) (hiByte a) = _ from congrArg Instr.rorAbsx (wordOf_bytes a)
theorem rorAcc : Statement (.rorAcc) := fun _ =>
  show decodeBytes 0x6A#8 0 0 = _ from rfl
theorem jmpAbs (a : Word) : Statement (.jmpAbs a) := fun _ =>
  show decodeBytes 0x4C#8 (loByte a) (hiByte a) = _ from congrArg Instr.jmpAbs (wordOf_bytes a)
theorem jmpInd (a : Word) : Statement (.jmpInd a) := fun _ =>
  show decodeBytes 0x6C#8 (loByte a) (hiByte a) = _ from congrArg Instr.jmpInd (wordOf_bytes a)
theorem jsr (a : Word) : Statement (.jsr a) := fun _ =>
  show decodeBytes 0x20#8 (loByte a) (hiByte a) = _ from congrArg Instr.jsr (wordOf_bytes a)
theorem rts : Statement (.rts) := fun _ =>
  show decodeBytes 0x60#8 0 0 = _ from rfl
theorem bcc (d : Byte) : Statement (.bcc d) := fun _ =>
  show decodeBytes 0x90#8 d 0 = _ from rfl
theorem bcs (d : Byte) : Statement (.bcs d) := fun _ =>
  show decodeBytes 0xB0#8 d 0 = _ from rfl
theorem beq (d : Byte) : Statement (.beq d) := fun _ =>
  show decodeBytes 0xF0#8 d 0 = _ from rfl
theorem bmi (d : Byte) : Statement (.bmi d) := fun _ =>
  show decodeBytes 0x30#8 d 0 = _ from rfl
theorem bne (d : Byte) : Statement (.bne d) := fun _ =>
  show decodeBytes 0xD0#8 d 0 = _ from rfl
theorem bpl (d : Byte) : Statement (.bpl d) := fun _ =>
  show decodeBytes 0x10#8 d 0 = _ from rfl
theorem bvc (d : Byte) : Statement (.bvc d) := fun _ =>
  show decodeBytes 0x50#8 d 0 = _ from rfl
theorem bvs (d : Byte) : Statement (.bvs d) := fun _ =>
  show decodeBytes 0x70#8 d 0 = _ from rfl
theorem brk : Statement (.brk) := fun _ =>
  show decodeBytes 0x00#8 0 0 = _ from rfl
theorem rti : Statement (.rti) := fun _ =>
  show decodeBytes 0x40#8 0 0 = _ from rfl
theorem nop : Statement (.nop) := fun _ =>
  show decodeBytes 0xEA#8 0 0 = _ from rfl
theorem clc : Statement (.clc) := fun _ =>
  show decodeBytes 0x18#8 0 0 = _ from rfl
theorem cld : Statement (.cld) := fun _ =>
  show decodeBytes 0xD8#8 0 0 = _ from rfl
theorem cli : Statement (.cli) := fun _ =>
  show decodeBytes 0x58#8 0 0 = _ from rfl
theorem clv : Statement (.clv) := fun _ =>
  show decodeBytes 0xB8#8 0 0 = _ from rfl
theorem sec : Statement (.sec) := fun _ =>
  show decodeBytes 0x38#8 0 0 = _ from rfl
theorem sed : Statement (.sed) := fun _ =>
  show decodeBytes 0xF8#8 0 0 = _ from rfl
theorem sei : Statement (.sei) := fun _ =>
  show decodeBytes 0x78#8 0 0 = _ from rfl

theorem illegal (op : Byte) : Statement (.illegal op) := fun h =>
  illegal_decodes op (List.contains_iff_mem.mp h) _ _

end Encoding

end Sys2Proof.Laws
end

