-- ==== Sys2Proof/Laws/Preserve.lean ====
section
/-! SUPPORT. Properties of memory and devices that instructions, and steps, keep: a property that a bus read and a bus write keep,
and that does not look at the CPU, is kept by every instruction; with the five actions of the line loop and the host's acts,
by every step. -/

namespace Sys2Proof.Machine

/-- `t` differs from `s` in the CPU, the place in the loop, the host's plan, the NMI latch and the draws alone. -/
structure SameMachine (s t : State) : Prop where
  ram : t.ram = s.ram
  bankByte : t.bankByte = s.bankByte
  color : t.color = s.color
  vic : t.vic = s.vic
  cia1 : t.cia1 = s.cia1
  cia2 : t.cia2 = s.cia2
  sid : t.sid = s.sid
  cfg : t.cfg = s.cfg

theorem SameMachine.rfl' (s : State) : SameMachine s s := ⟨rfl, rfl, rfl, rfl, rfl, rfl, rfl, rfl⟩

/-- A property that the bus keeps and that does not look at the CPU. -/
structure BusKept (P : State → Prop) : Prop where
  cpu : ∀ {s t}, SameMachine s t → P s → P t
  read : ∀ {s} a, P s → P (busRead a s).2
  write : ∀ {s} a v, P s → P (busWrite a v s)

variable {P : State → Prop}

/-- The property goes over to a state that differs in the CPU and the loop alone. -/
theorem BusKept.regs (k : BusKept P) {s t : State} (h : P s) (same : SameMachine s t := by exact ⟨rfl, rfl, rfl, rfl, rfl, rfl, rfl, rfl⟩) : P t :=
  k.cpu same h

theorem BusKept.setPC (k : BusKept P) {s : State} (w : Word) (h : P s) : P (s.setPC w) := k.regs h

theorem BusKept.read16 (k : BusKept P) {s : State} (a : Word) (h : P s) : P (busRead16 a s).2 := k.read _ (k.read _ h)

theorem BusKept.push (k : BusKept P) {s : State} (v : Byte) (h : P s) : P (Machine.push v s) :=
  k.regs (k.write _ _ h)

theorem BusKept.pushWord (k : BusKept P) {s : State} (w : Word) (h : P s) : P (Machine.pushWord w s) :=
  k.push _ (k.push _ h)

theorem BusKept.pull (k : BusKept P) {s : State} (h : P s) : P (Machine.pull s).2 := by
  rw [pull_eq]
  exact k.regs h

theorem BusKept.pullWord (k : BusKept P) {s : State} (h : P s) : P (Machine.pullWord s).2 := by
  rw [pullWord_eq]
  exact k.regs h

theorem BusKept.pullStatus (k : BusKept P) {s : State} (h : P s) : P (Machine.pullStatus s) := by
  rw [pullStatus_eq]
  exact k.regs h

theorem BusKept.takeInterrupt (k : BusKept P) {s : State} (b : Bool) (vec : Word) (h : P s) :
    P (Machine.takeInterrupt b vec s) := by
  unfold Machine.takeInterrupt
  refine k.setPC _ (k.read16 vec ?_)
  exact k.regs (k.push _ (k.pushWord _ h))

theorem BusKept.returnInterrupt (k : BusKept P) {s : State} (h : P s) : P (Machine.returnInterrupt s) := by
  rw [returnInterrupt_eq]
  exact k.regs h

theorem BusKept.advance (k : BusKept P) {s : State} (m : Mode) (h : P s) : P (stepOver m s) :=
  k.regs h

theorem BusKept.charge (k : BusKept P) {s : State} (n : Nat) (h : P s) : P (s.charge n) :=
  k.regs h

theorem BusKept.indirectTarget (k : BusKept P) {s : State} (a : Word) (h : P s) : P (Machine.indirectTarget a s).2 :=
  k.read _ (k.read _ h)

/-- The next state of an instruction has the property. -/
def NextHas (P : State → Prop) (r : Result) : Prop := ∃ t, r = .next t ∧ P t

theorem BusKept.finish (k : BusKept P) {s : State} (op : Byte) (n : Nat) (h : P s) : NextHas P (Machine.finish op n s) :=
  ⟨_, rfl, k.charge _ h⟩

theorem BusKept.readOperand (k : BusKept P) {s : State} (m : Mode) (h : P s) : P (Machine.readOperand m s).2 := by
  unfold Machine.readOperand
  split
  · exact h
  · exact h
  · exact k.read _ h

theorem BusKept.implied (k : BusKept P) {s : State} {f : State → State} (hf : ∀ t, P t → P (f t)) (op : Byte) (h : P s) :
    NextHas P (impliedInstr op f s) :=
  k.finish _ _ (hf _ (k.advance _ h))

theorem BusKept.readInstr (k : BusKept P) {s : State} {f : Byte → State → State} (hf : ∀ v t, SameMachine t (f v t)) (op : Byte)
    (m : Mode) (h : P s) : NextHas P (Machine.readInstr op m f s) :=
  k.finish _ _ (k.cpu (hf _ _) (k.readOperand m (k.advance m h)))

theorem BusKept.storeInstr (k : BusKept P) {s : State} (op : Byte) (m : Mode) (v : State → Byte) (h : P s) :
    NextHas P (Machine.storeInstr op m v s) :=
  k.finish _ _ (k.write _ _ (k.advance m h))

theorem BusKept.modifyWrite (k : BusKept P) {s : State} (a : Word) (old new : Byte) (h : P s) :
    P (Machine.modifyWrite a old new s) := by
  unfold Machine.modifyWrite
  split
  · exact k.write _ _ (k.write _ _ h)
  · exact k.write _ _ h

theorem BusKept.modifyInstr (k : BusKept P) {s : State} (op : Byte) (m : Mode) (f : Byte → Status → Byte × Status) (h : P s) :
    NextHas P (Machine.modifyInstr op m f s) := by
  unfold Machine.modifyInstr
  simp only
  split
  · exact k.finish _ _ (k.regs (k.advance .acc h))
  · refine k.finish _ _ (k.regs (k.modifyWrite _ _ _ (k.read _ (k.advance _ h))))

theorem BusKept.branchInstr (k : BusKept P) {s : State} (op d : Byte) (c : Status → Bool) (h : P s) :
    NextHas P (Machine.branchInstr op d c s) := by
  unfold Machine.branchInstr
  simp only
  split
  · exact k.finish _ _ (k.setPC _ (k.advance (.rel d) h))
  · exact k.finish _ _ (k.advance (.rel d) h)

/-- Every instruction answers a next state, and keeps every property that the bus keeps. -/
theorem BusKept.exec (k : BusKept P) (i : Instr) {s : State} (h : P s) : NextHas P (Machine.exec i s) := by
  rw [exec_meaning]
  cases i.mnemonic <;> simp only [meaning]
  case lda => unfold ldaInstr; refine k.readInstr ?_ _ _ h; intro v t; exact ⟨rfl, rfl, rfl, rfl, rfl, rfl, rfl, rfl⟩
  case ldx => unfold ldxInstr; refine k.readInstr ?_ _ _ h; intro v t; exact ⟨rfl, rfl, rfl, rfl, rfl, rfl, rfl, rfl⟩
  case ldy => unfold ldyInstr; refine k.readInstr ?_ _ _ h; intro v t; exact ⟨rfl, rfl, rfl, rfl, rfl, rfl, rfl, rfl⟩
  case adc => unfold adcInstr; refine k.readInstr ?_ _ _ h; intro v t; exact ⟨rfl, rfl, rfl, rfl, rfl, rfl, rfl, rfl⟩
  case sbc => unfold sbcInstr; refine k.readInstr ?_ _ _ h; intro v t; exact ⟨rfl, rfl, rfl, rfl, rfl, rfl, rfl, rfl⟩
  case cmp => unfold cmpInstr; refine k.readInstr ?_ _ _ h; intro v t; exact ⟨rfl, rfl, rfl, rfl, rfl, rfl, rfl, rfl⟩
  case cpx => unfold cpxInstr; refine k.readInstr ?_ _ _ h; intro v t; exact ⟨rfl, rfl, rfl, rfl, rfl, rfl, rfl, rfl⟩
  case cpy => unfold cpyInstr; refine k.readInstr ?_ _ _ h; intro v t; exact ⟨rfl, rfl, rfl, rfl, rfl, rfl, rfl, rfl⟩
  case and => unfold andInstr; refine k.readInstr ?_ _ _ h; intro v t; exact ⟨rfl, rfl, rfl, rfl, rfl, rfl, rfl, rfl⟩
  case ora => unfold oraInstr; refine k.readInstr ?_ _ _ h; intro v t; exact ⟨rfl, rfl, rfl, rfl, rfl, rfl, rfl, rfl⟩
  case eor => unfold eorInstr; refine k.readInstr ?_ _ _ h; intro v t; exact ⟨rfl, rfl, rfl, rfl, rfl, rfl, rfl, rfl⟩
  case bit => unfold bitInstr; refine k.readInstr ?_ _ _ h; intro v t; exact ⟨rfl, rfl, rfl, rfl, rfl, rfl, rfl, rfl⟩
  case sta => exact k.storeInstr _ _ _ h
  case stx => exact k.storeInstr _ _ _ h
  case sty => exact k.storeInstr _ _ _ h
  case inc => exact k.modifyInstr _ _ _ h
  case dec => exact k.modifyInstr _ _ _ h
  case asl => exact k.modifyInstr _ _ _ h
  case lsr => exact k.modifyInstr _ _ _ h
  case rol => exact k.modifyInstr _ _ _ h
  case ror => exact k.modifyInstr _ _ _ h
  case bcc => exact k.branchInstr _ _ _ h
  case bcs => exact k.branchInstr _ _ _ h
  case beq => exact k.branchInstr _ _ _ h
  case bmi => exact k.branchInstr _ _ _ h
  case bne => exact k.branchInstr _ _ _ h
  case bpl => exact k.branchInstr _ _ _ h
  case bvc => exact k.branchInstr _ _ _ h
  case bvs => exact k.branchInstr _ _ _ h
  case tax => unfold execTax; refine k.implied ?_ _ h; intro t ht; exact k.regs ht
  case tay => unfold execTay; refine k.implied ?_ _ h; intro t ht; exact k.regs ht
  case txa => unfold execTxa; refine k.implied ?_ _ h; intro t ht; exact k.regs ht
  case tya => unfold execTya; refine k.implied ?_ _ h; intro t ht; exact k.regs ht
  case tsx => unfold execTsx; refine k.implied ?_ _ h; intro t ht; exact k.regs ht
  case txs => unfold execTxs; refine k.implied ?_ _ h; intro t ht; exact k.regs ht
  case inx => unfold execInx; refine k.implied ?_ _ h; intro t ht; exact k.regs ht
  case iny => unfold execIny; refine k.implied ?_ _ h; intro t ht; exact k.regs ht
  case dex => unfold execDex; refine k.implied ?_ _ h; intro t ht; exact k.regs ht
  case dey => unfold execDey; refine k.implied ?_ _ h; intro t ht; exact k.regs ht
  case nop => unfold execNop; refine k.implied ?_ _ h; intro t ht; exact k.regs ht
  case clc => unfold execClc; refine k.implied ?_ _ h; intro t ht; exact k.regs ht
  case cld => unfold execCld; refine k.implied ?_ _ h; intro t ht; exact k.regs ht
  case cli => unfold execCli; refine k.implied ?_ _ h; intro t ht; exact k.regs ht
  case clv => unfold execClv; refine k.implied ?_ _ h; intro t ht; exact k.regs ht
  case sec => unfold execSec; refine k.implied ?_ _ h; intro t ht; exact k.regs ht
  case sed => unfold execSed; refine k.implied ?_ _ h; intro t ht; exact k.regs ht
  case sei => unfold execSei; refine k.implied ?_ _ h; intro t ht; exact k.regs ht
  case pha => unfold execPha; refine k.implied ?_ _ h; intro t ht; exact k.push _ ht
  case php => unfold execPhp; refine k.implied ?_ _ h; intro t ht; exact k.push _ ht
  case pla => unfold execPla; refine k.implied ?_ _ h; intro t ht; exact k.regs (k.pull ht)
  case plp => unfold execPlp; refine k.implied ?_ _ h; intro t ht; exact k.pullStatus ht
  case rts => unfold execRts; refine k.implied ?_ _ h; intro t ht; exact k.setPC _ (k.pullWord ht)
  case rti => unfold execRti; refine k.implied ?_ _ h; intro t ht; exact k.returnInterrupt ht
  case brk => exact k.finish _ _ (k.takeInterrupt _ _ (k.advance _ h))
  case jsr => exact k.finish _ _ (k.setPC _ (k.pushWord _ (k.advance _ h)))
  case jmp =>
    split
    · exact k.finish _ _ (k.setPC _ (k.indirectTarget _ (k.advance _ h)))
    · exact k.finish _ _ (k.setPC _ (k.advance _ h))
  case illegal => exact ⟨_, rfl, k.regs h⟩

/-- A property that the actions of the line loop and the host's acts keep as well. -/
structure StepKept (P : State → Prop) : Prop extends BusKept P where
  line : ∀ {s}, P s → P (startLine s)
  check : ∀ {s}, P s → P (ciaCheck s)
  drawn : ∀ {s}, P s → P (drawRasterline s)
  sound : ∀ {s}, P s → P (soundLine s)
  ram : ∀ {s} a v, P s → P (s.setRam a v)
  tick : ∀ {s} id, P s → P (todTick id s)
  reset : ∀ {s t}, t.ram = s.ram → t.bankByte = s.cfg.resetBankByte → t.color = s.color → t.vic = Vic.reset →
    t.cia1 = Cia.reset → t.cia2 = Cia.reset → t.sid = Sid.reset → t.cfg = s.cfg → P s → P t

theorem StepKept.storeBytes (k : StepKept P) (bytes : List Byte) {s : State} (a : Word) (h : P s) :
    P (Machine.storeBytes a bytes s) := by
  induction bytes generalizing s a with
  | nil => exact h
  | cons v rest ih => exact ih _ (k.ram a v h)

theorem StepKept.hostReset (k : StepKept P) {s : State} (h : P s) : P (Machine.hostReset s) := by
  unfold Machine.hostReset resetWith
  refine k.setPC _ (k.read16 _ ?_)
  exact k.reset (s := s) rfl rfl rfl rfl rfl rfl rfl rfl h

theorem StepKept.hostStep (k : StepKept P) (act : HostAct) {s : State} (h : P s) : P (Machine.hostStep act s) := by
  have run : ∀ t, runAct act s = .ok t → P t := by
    intro t ht
    cases act with
    | todTick id => cases ht; exact k.tick id h
    | inject addr a x y =>
      cases ht
      refine k.regs (k.pushWord _ ?_)
      exact k.regs h
    | setPC addr => cases ht; exact k.regs h
    | loadImage image =>
      simp only [runAct, loadImage] at ht
      split at ht
      · cases ht; exact k.storeBytes _ _ h
      · cases ht
    | saveImage => cases ht; exact h
    | reset => cases ht; exact k.hostReset h
  unfold Machine.hostStep
  split
  · rename_i t ht
    unfold hostAct at ht
    split at ht
    · split at ht
      · split at ht
        · cases ht; exact k.hostReset h
        · cases ht
      · cases ht
      · cases ht
    · split at ht
      · cases ht
      · exact run t ht
  · exact h

theorem StepKept.fetch (k : StepKept P) {s : State} (h : P s) : P (Machine.fetch s).2 := by
  unfold Machine.fetch
  simp only
  split
  · exact k.read _ h
  · exact k.read _ (k.read _ h)
  · exact k.read _ (k.read _ (k.read _ h))

theorem StepKept.enter (k : StepKept P) (vec : Word) {s : State} (h : P s) : P (enterInterrupt vec s) :=
  k.charge 7 (k.takeInterrupt false vec h)

theorem StepKept.cpuStep (k : StepKept P) {s : State} (h : P s) : NextHas P (Machine.cpuStep s) := by
  unfold Machine.cpuStep
  split
  · exact ⟨_, rfl, k.enter _ (k.regs h)⟩
  · split
    · exact ⟨_, rfl, k.enter _ h⟩
    · exact k.exec _ (k.fetch h)

theorem StepKept.coreStep (k : StepKept P) {s : State} (h : P s) : NextHas P (Machine.coreStep s) := by
  unfold Machine.coreStep
  split
  · exact ⟨_, rfl, k.line h⟩
  · split
    · exact k.cpuStep h
    · exact ⟨_, rfl, k.regs (k.check h)⟩
  · split
    · exact k.cpuStep h
    · exact ⟨_, rfl, k.regs (k.check h)⟩
  · exact ⟨_, rfl, k.regs (k.drawn h)⟩
  · exact ⟨_, rfl, k.regs (k.sound h)⟩

theorem StepKept.injectedStep (k : StepKept P) (saved : Saved) {s : State} (h : P s) :
    NextHas P (Machine.injectedStep saved s) := by
  unfold Machine.injectedStep
  obtain ⟨t, ht, hp⟩ := k.exec (Machine.fetch s).1 (k.fetch h)
  simp only [ht]
  split
  · exact ⟨_, rfl, k.regs hp⟩
  · exact ⟨_, rfl, k.regs hp⟩

/-- A property of memory and devices that every action keeps is kept by every step (R8, R440, R460). -/
theorem StepKept.step (k : StepKept P) {s t : State} (hs : Machine.step s = .next t) (h : P s) : P t := by
  have next : ∀ r : Result, NextHas P r → r = .next t → P t := by
    rintro r ⟨u, rfl, hu⟩ e
    cases e
    exact hu
  have rest : ∀ plan, P { s with hostPlan := plan } := fun plan =>
    k.regs h
  unfold Machine.step machineStep at hs
  split at hs
  · unfold haltedStep at hs
    split at hs
    · split at hs
      · cases hs; exact k.hostStep _ (rest _)
      · cases hs
    · cases hs
  · split at hs
    · exact next _ (k.injectedStep _ h) hs
    · unfold boundaryStep at hs
      split at hs
      · exact next _ (k.coreStep h) hs
      · exact next _ (k.coreStep (rest _)) hs
      · cases hs; exact k.hostStep _ (rest _)

end Sys2Proof.Machine
end

