-- ==== Sys2Proof/Laws/Shapes.lean ====
section
/-! SUPPORT. What each shape of instruction does (30_encoding R163, R164, R181, 44_logic_shift R278): one lemma for each shape says
its next state whole, so that a statement about an instruction cites its shape and computes its registers. -/

namespace Sys2Proof.Machine

/-- `t` differs from `s` in A, X, Y, SP and P alone. -/
def CpuOnly (s t : State) : Prop := t = { s with a := t.a, x := t.x, y := t.y, sp := t.sp, p := t.p }

theorem CpuOnly.run {s t : State} (h : CpuOnly s t) : SameRun s t := by
  rw [h]
  exact ⟨rfl, rfl, rfl, rfl, rfl, rfl, rfl⟩

theorem CpuOnly.memory {s t : State} (h : CpuOnly s t) : SameMemory s t := by
  rw [h]
  exact ⟨fun _ => rfl, fun _ => rfl, rfl⟩

theorem CpuOnly.devices {s t : State} (h : CpuOnly s t) : SameDevices s t := by
  rw [h]
  exact ⟨rfl, rfl, rfl, rfl, rfl, rfl⟩

theorem CpuOnly.pc {s t : State} (h : CpuOnly s t) : t.pc = s.pc := by rw [h]

theorem CpuOnly.counts {s t : State} (h : CpuOnly s t) : t.lineCycles = s.lineCycles ∧ t.sinceCheck = s.sinceCheck := by
  rw [h]
  exact ⟨rfl, rfl⟩

/-- An instruction that names its operands itself and touches the CPU alone (R180). -/
theorem impliedInstr_shape {f : State → State} (hf : ∀ t, CpuOnly t (f t)) (op : Byte) (s : State) :
    ∃ t, impliedInstr op f s = .next t ∧ t.pc = s.pc + 1#16 ∧
      (let u := f (stepOver .impl s)
       t.a = u.a ∧ t.x = u.x ∧ t.y = u.y ∧ t.sp = u.sp ∧ t.p = u.p) ∧
      Ran (s.cyclesOf op) s t ∧ SameMemory s t ∧ SameDevices s t := by
  have h := hf (stepOver .impl s)
  refine ⟨_, rfl, h.pc, ⟨rfl, rfl, rfl, rfl, rfl⟩, ⟨?_, ?_, ?_⟩, ?_, ?_⟩
  · show (f _).lineCycles + _ = _
    rw [h.counts.1]
    show _ + ((f _).cfg.cycleTable.getD _ 0 + 0) = _
    rw [h.run.cfg]
    rfl
  · show (f _).sinceCheck + _ = _
    rw [h.counts.2]
    show _ + ((f _).cfg.cycleTable.getD _ 0 + 0) = _
    rw [h.run.cfg]
    rfl
  · exact ⟨h.run.halted, h.run.haltPC, h.run.haltOp, h.run.phase, h.run.inject, h.run.hostPlan, h.run.cfg⟩
  · exact ⟨h.memory.ram, h.memory.color, h.memory.bank⟩
  · exact ⟨h.devices.vic, h.devices.cia1, h.devices.cia2, h.devices.sid, h.devices.nmiAck, h.devices.draws⟩

/-- An instruction that reads its operand and touches the CPU alone (R164, R181): `M` is the operand and the state its read
leaves. -/
theorem readInstr_shape {f : Byte → State → State} (hf : ∀ v t, CpuOnly t (f v t)) (op : Byte) (m : Mode) (s : State) :
    let M := readOperand m (stepOver m s)
    ∃ t, readInstr op m f s = .next t ∧ t.pc = s.pc + BitVec.ofNat 16 m.length ∧
      (let u := f M.1 M.2
       t.a = u.a ∧ t.x = u.x ∧ t.y = u.y ∧ t.sp = u.sp ∧ t.p = u.p) ∧
      Ran (s.cyclesOf op + readExtra m (stepOver m s)) s t ∧ SameMemory s t ∧ SameDevices M.2 t := by
  intro M
  have h := hf M.1 M.2
  have hr : SameRun (stepOver m s) M.2 := by
    refine ⟨?_, ?_, ?_, ?_, ?_, ?_, ?_⟩ <;> simp [M]
  refine ⟨_, rfl, ?_, ⟨rfl, rfl, rfl, rfl, rfl⟩, ⟨?_, ?_, ?_⟩, ?_, ?_⟩
  · show (f M.1 M.2).pc = _
    rw [h.pc]
    show (readOperand _ _).2.pc = _
    rw [readOperand_pc]
    rfl
  · show (f M.1 M.2).lineCycles + ((f M.1 M.2).cfg.cycleTable.getD _ 0 + _) = _
    rw [h.counts.1, h.run.cfg, hr.cfg]
    show (readOperand _ _).2.lineCycles + _ = _
    rw [readOperand_lineCycles]
    rfl
  · show (f M.1 M.2).sinceCheck + ((f M.1 M.2).cfg.cycleTable.getD _ 0 + _) = _
    rw [h.counts.2, h.run.cfg, hr.cfg]
    show (readOperand _ _).2.sinceCheck + _ = _
    rw [readOperand_sinceCheck]
    rfl
  · exact ⟨h.run.halted.trans hr.halted, h.run.haltPC.trans hr.haltPC, h.run.haltOp.trans hr.haltOp,
      h.run.phase.trans hr.phase, h.run.inject.trans hr.inject, h.run.hostPlan.trans hr.hostPlan, h.run.cfg.trans hr.cfg⟩
  · refine ⟨fun a => (h.memory.ram a).trans ?_, fun k => (h.memory.color k).trans ?_, h.memory.bank.trans ?_⟩
    · show (readOperand _ _).2.ram.read a = _
      rw [readOperand_ram]
      rfl
    · show (readOperand _ _).2.color.read k = _
      rw [readOperand_color]
      rfl
    · exact (readOperand_bankByte _ _).trans rfl
  · exact ⟨h.devices.vic, h.devices.cia1, h.devices.cia2, h.devices.sid, h.devices.nmiAck, h.devices.draws⟩

/-- An instruction that stores one byte (R164, R181). -/
theorem storeInstr_shape (op : Byte) (m : Mode) (v : State → Byte) (s : State) :
    let ea := effectiveAddress m (stepOver m s)
    let w := busWrite ea (v (stepOver m s)) s
    ∃ t, storeInstr op m v s = .next t ∧ t.pc = s.pc + BitVec.ofNat 16 m.length ∧ t.p = s.p ∧ SameRegisters s t ∧
      Ran (s.cyclesOf op) s t ∧ SameMemory w t ∧ SameDevices w t ∧ WrittenAt ea s t := by
  intro ea w
  have e : busWrite ea (v (stepOver m s)) (stepOver m s) = w.setPC (s.pc + BitVec.ofNat 16 m.length) :=
    busWrite_setPC _ _ _ _
  have hw := busWrite_writtenAt ea (v (stepOver m s)) s
  refine ⟨(w.setPC (s.pc + BitVec.ofNat 16 m.length)).charge (s.cyclesOf op), ?_, rfl, ?_, ?_, ⟨?_, ?_, ?_⟩, ?_, ?_, ?_⟩
  · show finish op 0 (busWrite ea _ (stepOver m s)) = _
    rw [e]
    unfold finish
    have : (w.setPC (s.pc + BitVec.ofNat 16 m.length)).cyclesOf op = s.cyclesOf op := by
      show w.cfg.cycleTable.getD _ _ = _
      rw [busWrite_cfg]
      rfl
    rw [this]
    rfl
  · exact busWrite_p _ _ _
  · exact ⟨busWrite_a _ _ _, busWrite_x _ _ _, busWrite_y _ _ _, busWrite_sp _ _ _⟩
  · show w.lineCycles + _ = _
    rw [busWrite_lineCycles]
  · show w.sinceCheck + _ = _
    rw [busWrite_sinceCheck]
  · exact ⟨busWrite_halted _ _ _, busWrite_haltPC _ _ _, busWrite_haltOp _ _ _, busWrite_phase _ _ _, busWrite_inject _ _ _,
      busWrite_hostPlan _ _ _, busWrite_cfg _ _ _⟩
  · exact ⟨fun _ => rfl, fun _ => rfl, rfl⟩
  · exact ⟨rfl, rfl, rfl, rfl, rfl, rfl⟩
  · exact ⟨hw.ram, hw.color, hw.bank, hw.vic, hw.sid, hw.cia1, hw.cia2, hw.nmiAck, hw.draws⟩

/-- A read-modify-write of memory (R164, R278): `v` is the byte read with the state its read leaves, `f` the new byte and the
status. -/
theorem modifyInstr_shape (op : Byte) {m : Mode} (hm : m ≠ .acc) (f : Byte → Status → Byte × Status) (s : State) :
    let ea := effectiveAddress m (stepOver m s)
    let v := busRead ea (stepOver m s)
    let r := f v.1 s.p
    let w := modifyWrite ea v.1 r.1 v.2
    ∃ t, modifyInstr op m f s = .next t ∧ t.pc = s.pc + BitVec.ofNat 16 m.length ∧ t.p = r.2 ∧ SameRegisters s t ∧
      Ran (s.cyclesOf op) s t ∧ SameMemory w t ∧ SameDevices w t := by
  intro ea v r w
  have hp : v.2.p = s.p := busRead_p _ _
  have hw : ∀ {α : Type} (g : State → α), (∀ a b u, g (busWrite a b u) = g u) → g w = g v.2 := by
    intro α g hg
    show g (modifyWrite ea v.1 r.1 v.2) = _
    unfold modifyWrite
    split
    · rw [hg, hg]
    · rw [hg]
  have e : modifyInstr op m f s = finish op 0 (w.setP r.2) := by
    unfold modifyInstr
    split
    · exact absurd rfl hm
    · show finish op 0 ((modifyWrite ea v.1 (f v.1 v.2.p).1 v.2).setP (f v.1 v.2.p).2) = _
      rw [hp]
  have hcfg : w.cfg = s.cfg := (hw State.cfg busWrite_cfg).trans (busRead_cfg _ _)
  refine ⟨_, e, ?_, rfl, ?_, ⟨?_, ?_, ?_⟩, ?_, ?_⟩
  · exact (hw State.pc busWrite_pc).trans (busRead_pc _ _)
  · exact ⟨(hw State.a busWrite_a).trans (busRead_a _ _), (hw State.x busWrite_x).trans (busRead_x _ _),
      (hw State.y busWrite_y).trans (busRead_y _ _), (hw State.sp busWrite_sp).trans (busRead_sp _ _)⟩
  · show w.lineCycles + (w.cfg.cycleTable.getD _ 0 + 0) = _
    rw [hcfg, (hw State.lineCycles busWrite_lineCycles).trans (busRead_lineCycles _ _)]
    rfl
  · show w.sinceCheck + (w.cfg.cycleTable.getD _ 0 + 0) = _
    rw [hcfg, (hw State.sinceCheck busWrite_sinceCheck).trans (busRead_sinceCheck _ _)]
    rfl
  · exact ⟨(hw State.halted busWrite_halted).trans (busRead_halted _ _), (hw State.haltPC busWrite_haltPC).trans (busRead_haltPC _ _),
      (hw State.haltOp busWrite_haltOp).trans (busRead_haltOp _ _), (hw State.phase busWrite_phase).trans (busRead_phase _ _),
      (hw State.inject busWrite_inject).trans (busRead_inject _ _), (hw State.hostPlan busWrite_hostPlan).trans (busRead_hostPlan _ _),
      hcfg⟩
  · exact ⟨fun _ => rfl, fun _ => rfl, rfl⟩
  · exact ⟨rfl, rfl, rfl, rfl, rfl, rfl⟩

end Sys2Proof.Machine
end

