-- ==== Sys2Proof/Tests/Slice0.lean ====
section
/-! SUPPORT. Tests. The well-formedness smoke test; instruction words written out from 30_encoding R161, R162 and R166; one step
of every instruction, each expected result taken from the example of the instruction's rule or from 95_test_vectors.md, as its
comment says; device and host vectors; and, for every statement that has hypotheses, a witness that meets them. -/

namespace Sys2Proof.Tests

open Sys2Proof.Machine

/-- The reset state with bytes placed in RAM. -/
def poke (cells : List (Nat × Byte)) (s : State) : State :=
  { s with ram := cells.foldl (fun (m : Memory 8) c => Memory.write m c.1 c.2) s.ram }

/-- The reset state at a CPU step, about to fetch the bytes of `code` at `at_`. -/
def coded (at_ : Nat) (code : List Byte) : State :=
  poke ((List.range code.length).map (fun k => (at_ + k, code.getD k 0)))
    { State.reset with pc := BitVec.ofNat 16 at_, phase := .lastBatch 63 }

/-- The state one step later, if the step answers one. -/
def after (s : State) : Option State :=
  match step s with
  | .next t => some t
  | _ => none

/-- The state one step after fetching `code` at 0xC000, from the reset state as `setup` changes it. -/
def run (setup : State → State) (code : List Byte) : Option State := after (setup (coded 0xC000 code))

/-! Well-formedness. -/

theorem test_wellFormed_refuses_admitted_byte : (Instr.illegal 0xA9#8).wellFormed = false := by decide
theorem test_wellFormed_accepts_illegal_byte : (Instr.illegal 0x02#8).wellFormed = true := by decide

/-! Words written out from the spec's opcode map and formats: byte 1 in bits 15..8, byte 2 in bits 23..16. -/

-- 41: STX zpy is row 9, column 6; LDY absx is row B, column C, its low address byte first.
theorem test_word_stx_zpy : decodeTableWord 16 0x1096 = some (.stxZpy 0x10#8) := by decide
theorem test_word_ldy_absx : decodeTableWord 24 0x1234BC = some (.ldyAbsx 0x1234#16) := by decide
-- 42: TYA is row 9, column 8.
theorem test_word_tya : decodeTableWord 8 0x98 = some .tya := by decide
-- 43: SBC indx is row E, column 1.
theorem test_word_sbc_indx : decodeTableWord 16 0xFEE1 = some (.sbcIndx 0xFE#8) := by decide
-- 44: EOR absy is row 5, column 9; LSR acc row 4, column A.
theorem test_word_eor_absy : decodeTableWord 24 0xC00159 = some (.eorAbsy 0xC001#16) := by decide
theorem test_word_lsr_acc : decodeTableWord 8 0x4A = some .lsrAcc := by decide
-- 45: JSR abs is row 2, column 0; BRK is row 0, column 0, its second byte never read.
theorem test_word_jsr : decodeTableWord 24 0xC10E20 = some (.jsr 0xC10E#16) := by decide
theorem test_word_brk : decodeTableWord 16 0xEA00 = some .brk := by decide
-- 46: CLV is row B, column 8.
theorem test_word_clv : decodeTableWord 8 0xB8 = some .clv := by decide
-- R168: 0x9C is illegal.
theorem test_word_illegal : decodeTableWord 8 0x9C = some (.illegal 0x9C#8) := by decide

/-! The hooks of the interface. -/

theorem test_placed_word_runs_first : (after (State.reset.withFetchWord 16 0x80A9)).map (·.a) = some 0x80#8 := by decide
-- The reset state is `resetWith` of the values the log names.
theorem test_reset_is_resetWith :
    resetWith ⟨0, 0, 0, 0, 0, 0, 0⟩ State.reset = State.reset := rfl

/-! Loads and stores (41_load_store.md, 95_test_vectors.md). -/

-- R200's example.
theorem test_lda : (run id [0xA9#8, 0x80#8]).map (fun t => (t.a, t.p.n, t.p.z)) = some (0x80#8, true, false) := by decide
-- V30.1: the zero-page sum wraps to 0x0001, the bank byte; 4 cycles.
theorem test_lda_zpx :
    (run (fun s => s.setX 0x02#8) [0xB5#8, 0xFF#8]).map (fun t => (t.a, t.lineCycles)) = some (0x37#8, 4) := by decide
-- V30.3: the base's page is left; 6 cycles.
theorem test_lda_indy :
    (run (fun s => poke [(0xFF, 0xF0#8), (0x00, 0x12#8), (0x1310, 0x55#8)] (s.setY 0x20#8)) [0xB1#8, 0xFF#8]).map
      (fun t => (t.a, t.lineCycles)) = some (0x55#8, 6) := by decide
-- R201's example, and V30.9.
theorem test_ldx : (run id [0xA2#8, 0x00#8]).map (fun t => (t.x, t.p.z, t.p.n)) = some (0#8, true, false) := by decide
theorem test_ldx_zpy :
    (run (fun s => poke [(0x02, 0x44#8)] (s.setY 0x03#8)) [0xB6#8, 0xFF#8]).map (fun t => (t.x, t.lineCycles)) =
      some (0x44#8, 4) := by decide
-- R202's example.
theorem test_ldy : (run id [0xA0#8, 0xFF#8]).map (fun t => (t.y, t.p.n, t.p.z)) = some (0xFF#8, true, false) := by decide
-- R203's example, and V30.7.
theorem test_sta : (run (fun s => s.setA 0x37#8) [0x85#8, 0x01#8]).map (fun t => (t.bankByte, t.p)) =
    some (0x37#8, Status.reset) := by decide
theorem test_sta_absx :
    (run (fun s => (s.setX 0x01#8).setA 0x66#8) [0x9D#8, 0xFF#8, 0x10#8]).map
      (fun t => (t.ram.read 0x1100, t.lineCycles)) = some (0x66#8, 5) := by decide
-- R204's example, and V41.3.
theorem test_stx : (run (fun s => s.setX 0x05#8) [0x86#8, 0x10#8]).map (·.ram.read 0x10) = some 0x05#8 := by decide
theorem test_stx_zpy :
    (run (fun s => (s.setX 0x05#8).setY 0x03#8) [0x96#8, 0xFE#8]).map (fun t => (t.bankByte, t.ram.read 1)) =
      some (0x05#8, 0x05#8) := by decide
-- R205's example.
theorem test_sty : (run (fun s => s.setY 0x42#8) [0x8C#8, 0x00#8, 0xC0#8]).map (·.ram.read 0xC000) = some 0x42#8 := by decide

/-! Transfers and the stack (42_transfer_stack.md). -/

-- R220's example.
theorem test_tax : (run (fun s => s.setX 7#8) [0xAA#8]).map (fun t => (t.x, t.p.z)) = some (0x00#8, true) := by decide
-- R221's example.
theorem test_tay : (run (fun s => s.setA 0x90#8) [0xA8#8]).map (fun t => (t.y, t.p.n, t.p.z)) =
    some (0x90#8, true, false) := by decide
-- R222's example.
theorem test_txa : (run (fun s => s.setX 0x01#8) [0x8A#8]).map (fun t => (t.a, t.p.n, t.p.z)) =
    some (0x01#8, false, false) := by decide
-- R223's example.
theorem test_tya : (run (fun s => s.setY 0xFF#8) [0x98#8]).map (fun t => (t.a, t.p.n)) = some (0xFF#8, true) := by decide
-- R224's example.
theorem test_tsx : (run (fun s => s.setSP 0xFD#8) [0xBA#8]).map (fun t => (t.x, t.p.n, t.p.z)) =
    some (0xFD#8, true, false) := by decide
-- R225's example.
theorem test_txs : (run (fun s => s.setX 0xFF#8) [0x9A#8]).map (fun t => (t.sp, t.p)) = some (0xFF#8, Status.reset) := by decide
-- R226's example, and V42.1.
theorem test_pha : (run (fun s => (s.setA 0x12#8).setSP 0xFF#8) [0x48#8]).map (fun t => (t.ram.read 0x01FF, t.sp)) =
    some (0x12#8, 0xFE#8) := by decide
theorem test_pha_wraps : (run (fun s => (s.setA 0x77#8).setSP 0x00#8) [0x48#8]).map (fun t => (t.ram.read 0x0100, t.sp)) =
    some (0x77#8, 0xFF#8) := by decide
-- R227's example.
theorem test_php : (run (fun s => s.setSP 0xFF#8) [0x08#8]).map (·.ram.read 0x01FF) = some 0x34#8 := by decide
-- R228's example, and V42.2.
theorem test_pla : (run (fun s => (s.setA 9#8).setSP 0xFE#8) [0x68#8]).map (fun t => (t.a, t.p.z, t.sp)) =
    some (0x00#8, true, 0xFF#8) := by decide
theorem test_pla_wraps :
    (run (fun s => poke [(0x0100, 0x80#8)] (s.setSP 0xFF#8)) [0x68#8]).map (fun t => (t.sp, t.a, t.p.n, t.p.z)) =
      some (0x00#8, 0x80#8, true, false) := by decide
-- R229's example, and V42.5.
theorem test_plp :
    (run (fun s => poke [(0x0100, 0xFF#8)] (s.setSP 0xFF#8)) [0x28#8]).map
      (fun t => (t.p.n, t.p.v, t.p.d, t.p.i, t.p.z, t.p.c)) = some (true, true, true, true, true, true) := by decide
theorem test_plp_discards :
    (run (fun s => poke [(0x0100, 0x30#8)] (s.setSP 0xFF#8)) [0x28#8]).map
      (fun t => (t.p.n, t.p.v, t.p.d, t.p.i, t.p.z, t.p.c)) = some (false, false, false, false, false, false) := by decide

/-! Arithmetic (43_arithmetic.md). -/

-- R243's example.
theorem test_adc :
    (run (fun s => (s.setA 0x05#8).setP { Status.reset with c := true }) [0x69#8, 0x07#8]).map
      (fun t => (t.a, t.p.c, t.p.v)) = some (0x0D#8, false, false) := by decide
-- P3: 0x58 + 0x46 in decimal mode.
theorem test_adc_decimal :
    (run (fun s => (s.setA 0x58#8).setP { Status.reset with d := true }) [0x69#8, 0x46#8]).map
      (fun t => (t.a, t.p.c, t.p.n, t.p.v, t.p.z)) = some (0x04#8, true, true, true, false) := by decide
-- R244's example, and V43.14.
theorem test_sbc :
    (run (fun s => (s.setA 0x50#8).setP { Status.reset with c := true }) [0xE9#8, 0xF0#8]).map
      (fun t => (t.a, t.p.c, t.p.v, t.p.n, t.p.z)) = some (0x60#8, false, false, false, false) := by decide
theorem test_sbc_decimal :
    (run (fun s => (s.setA 0x21#8).setP { Status.reset with c := true, d := true }) [0xE9#8, 0x34#8]).map
      (fun t => (t.a, t.p.c, t.p.n)) = some (0x87#8, false, true) := by decide
-- R246's example, and V43.16.
theorem test_cmp : (run (fun s => s.setA 0x40#8) [0xC9#8, 0x40#8]).map (fun t => (t.p.z, t.p.c, t.p.n)) =
    some (true, true, false) := by decide
theorem test_cmp_less : (run id [0xC9#8, 0x80#8]).map (fun t => (t.p.c, t.p.z, t.p.n)) = some (false, false, true) := by decide
-- R247's example.
theorem test_cpx : (run (fun s => s.setX 0x10#8) [0xE0#8, 0x20#8]).map (fun t => (t.p.c, t.p.z, t.p.n)) =
    some (false, false, true) := by decide
-- R248's example.
theorem test_cpy : (run (fun s => s.setY 0x04#8) [0xC0#8, 0x04#8]).map (fun t => (t.p.z, t.p.c, t.p.n)) =
    some (true, true, false) := by decide
-- R249's example.
theorem test_inc : (run (poke [(0x10, 0x7F#8)]) [0xE6#8, 0x10#8]).map (fun t => (t.ram.read 0x10, t.p.n, t.p.z)) =
    some (0x80#8, true, false) := by decide
-- V43.19.
theorem test_dec : (run id [0xC6#8, 0x10#8]).map (fun t => (t.ram.read 0x10, t.p.n)) = some (0xFF#8, true) := by decide
-- R251's example.
theorem test_inx : (run (fun s => s.setX 0x7F#8) [0xE8#8]).map (fun t => (t.x, t.p.n)) = some (0x80#8, true) := by decide
-- R252's corner case.
theorem test_iny : (run (fun s => s.setY 0xFF#8) [0xC8#8]).map (fun t => (t.y, t.p.z)) = some (0x00#8, true) := by decide
-- R253's corner case.
theorem test_dex : (run id [0xCA#8]).map (fun t => (t.x, t.p.n)) = some (0xFF#8, true) := by decide
-- R254's example.
theorem test_dey : (run id [0x88#8]).map (fun t => (t.y, t.p.n, t.p.z)) = some (0xFF#8, true, false) := by decide

/-! Logic and shifts (44_logic_shift.md). -/

-- R270's example.
theorem test_and : (run (fun s => s.setA 0xF0#8) [0x29#8, 0x0F#8]).map (fun t => (t.a, t.p.z)) = some (0x00#8, true) := by decide
-- R271's example.
theorem test_ora : (run (fun s => s.setA 0x01#8) [0x09#8, 0x80#8]).map (fun t => (t.a, t.p.n)) = some (0x81#8, true) := by decide
-- V44.7.
theorem test_eor : (run (fun s => s.setA 0x0F#8) [0x49#8, 0xF0#8]).map (fun t => (t.a, t.p.n)) = some (0xFF#8, true) := by decide
-- R273's example.
theorem test_bit :
    (run (fun s => poke [(0x20, 0xC0#8)] (s.setA 0x01#8)) [0x24#8, 0x20#8]).map (fun t => (t.p.z, t.p.n, t.p.v, t.a)) =
      some (true, true, true, 0x01#8) := by decide
-- R274's example, and V44.3.
theorem test_asl : (run (fun s => s.setA 0x81#8) [0x0A#8]).map (fun t => (t.a, t.p.c, t.p.n, t.p.z)) =
    some (0x02#8, true, false, false) := by decide
theorem test_asl_zp : (run (poke [(0x10, 0x80#8)]) [0x06#8, 0x10#8]).map (fun t => (t.ram.read 0x10, t.p.c, t.p.z)) =
    some (0x00#8, true, true) := by decide
-- R275's example.
theorem test_lsr : (run (fun s => s.setA 0x01#8) [0x4A#8]).map (fun t => (t.a, t.p.c, t.p.z, t.p.n)) =
    some (0x00#8, true, true, false) := by decide
-- V44.5.
theorem test_rol :
    (run (fun s => (s.setA 0x40#8).setP { Status.reset with c := true }) [0x2A#8]).map (fun t => (t.a, t.p.c, t.p.n)) =
      some (0x81#8, false, true) := by decide
-- V44.4.
theorem test_ror_zp :
    (run (fun s => poke [(0x10, 0x01#8)] (s.setP { Status.reset with c := true })) [0x66#8, 0x10#8]).map
      (fun t => (t.ram.read 0x10, t.p.c, t.p.n)) = some (0x80#8, true, true) := by decide

/-! Control flow (45_control.md). -/

-- R290's example, and V30.10 without the wrap.
theorem test_jmp_ind :
    (run (poke [(0x10FF, 0x34#8), (0x1000, 0x12#8), (0x1100, 0x56#8)]) [0x6C#8, 0xFF#8, 0x10#8]).map (·.pc) =
      some 0x1234#16 := by decide
theorem test_jmp_ind_no_wrap :
    (run (fun s => poke [(0x10FF, 0x34#8), (0x1000, 0x12#8), (0x1100, 0x56#8)]
      { s with cfg := { s.cfg with jmpIndPageWrap := false } }) [0x6C#8, 0xFF#8, 0x10#8]).map (·.pc) =
      some 0x5634#16 := by decide
-- R291's example.
theorem test_jsr :
    (after { coded 0xC108 [0x20#8, 0x0E#8, 0xC1#8] with sp := 0xFF#8 }).map
      (fun t => (t.ram.read 0x01FF, t.ram.read 0x01FE, t.sp, t.pc)) = some (0xC1#8, 0x0A#8, 0xFD#8, 0xC10E#16) := by decide
-- V45.3.
theorem test_rts :
    (run (fun s => poke [(0x0100, 0x34#8), (0x0101, 0x12#8)] (s.setSP 0xFF#8)) [0x60#8]).map (fun t => (t.sp, t.pc)) =
      some (0x01#8, 0x1235#16) := by decide
-- R294's example, R295's, R296's, R297's, V30.11 (whose offset byte, at 0x0001, is the bank byte), R299's and R300's; BVS across a
-- page by R293.
theorem test_bcc : (after (coded 0x1000 [0x90#8, 0x10#8])).map (fun t => (t.pc, t.lineCycles)) = some (0x1012#16, 3) := by decide
theorem test_bcs :
    (after { coded 0x10F0 [0xB0#8, 0x20#8] with p := { Status.reset with c := true } }).map (fun t => (t.pc, t.lineCycles)) =
      some (0x1112#16, 4) := by decide
theorem test_beq : (after (coded 0x2000 [0xF0#8, 0x20#8])).map (fun t => (t.pc, t.lineCycles)) = some (0x2002#16, 2) := by decide
theorem test_bmi :
    (after { coded 0x2000 [0x30#8, 0x80#8] with p := { Status.reset with n := true } }).map (fun t => (t.pc, t.lineCycles)) =
      some (0x1F82#16, 4) := by decide
theorem test_bne :
    (after { coded 0x0000 [0xD0#8] with bankByte := 0xFC#8 }).map (fun t => (t.pc, t.lineCycles)) = some (0xFFFE#16, 4) := by decide
theorem test_bpl : (after (coded 0x3000 [0x10#8, 0x7F#8])).map (fun t => (t.pc, t.lineCycles)) = some (0x3081#16, 3) := by decide
theorem test_bvc :
    (run (fun s => s.setP { Status.reset with v := true }) [0x50#8, 0x10#8]).map (fun t => (t.pc, t.lineCycles)) =
      some (0xC002#16, 2) := by decide
theorem test_bvs :
    (after { coded 0xCFF0 [0x70#8, 0x20#8] with p := { Status.reset with v := true } }).map (fun t => (t.pc, t.lineCycles)) =
      some (0xD012#16, 4) := by decide
/-- V45.4, the vector in RAM under bank mode 5. -/
def brkState : State :=
  poke [(0xFFFE, 0x48#8), (0xFFFF, 0xFF#8)]
    { coded 0x1000 [0x00#8] with
      sp := 0xFF#8
      bankByte := 0x35#8
      p := { Status.reset with i := false, z := true } }
theorem test_brk_pushes :
    (after brkState).map (fun t => (t.ram.read 0x01FF, t.ram.read 0x01FE, t.ram.read 0x01FD)) =
      some (0x10#8, 0x02#8, 0x32#8) := by decide
theorem test_brk_goes :
    (after brkState).map (fun t => (t.sp, t.p.i, t.pc, t.lineCycles)) = some (0xFC#8, true, 0xFF48#16, 7) := by decide
-- V45.6.
theorem test_rti :
    (run (fun s => poke [(0x01FD, 0x32#8), (0x01FE, 0x02#8), (0x01FF, 0x10#8)] (s.setSP 0xFC#8)) [0x40#8]).map
      (fun t => (t.p.z, t.p.i, t.pc, t.sp, t.lineCycles)) = some (true, false, 0x1002#16, 0xFF#8, 6) := by decide
-- R304's example.
theorem test_nop : (run id [0xEA#8]).map (fun t => (t.pc, t.p, t.lineCycles)) = some (0xC001#16, Status.reset, 2) := by decide

/-! Flags (46_flags.md), each the example of its rule. -/

theorem test_clc : (run (fun s => s.setP { Status.reset with c := true }) [0x18#8]).map (·.p.c) = some false := by decide
theorem test_cld : (run (fun s => s.setP { Status.reset with d := true }) [0xD8#8]).map (·.p.d) = some false := by decide
theorem test_cli : (run id [0x58#8]).map (·.p.i) = some false := by decide
theorem test_clv : (run (fun s => s.setP { Status.reset with v := true }) [0xB8#8]).map (·.p.v) = some false := by decide
theorem test_sec : (run id [0x38#8]).map (·.p.c) = some true := by decide
theorem test_sed : (run id [0xF8#8]).map (·.p.d) = some true := by decide
theorem test_sei : (run (fun s => s.setP { Status.reset with i := false }) [0x78#8]).map (·.p.i) = some true := by decide

/-! Faults, interrupts and the host (60_exceptions.md, 95_test_vectors.md). -/

-- V30.12.
theorem test_illegal :
    (run id [0x02#8]).map (fun t => (t.halted, t.haltPC, t.haltOp, t.pc, t.lineCycles)) =
      some (true, 0xC000#16, 0x02#8, 0xC000#16, 0) := by decide

/-- A state about to take an IRQ from CIA1 (V60.1). -/
def irqState : State :=
  let s := coded 0x1000 [0xEA#8]
  { s with cia1 := { s.cia1 with icrLatch := 1, icrMask := 1, icrFlag := true }, p := { Status.reset with i := false }, sp := 0xFF }

/-- A state about to take an NMI, IRQ masked (V60.3). -/
def nmiState : State :=
  let s := coded 0x1000 [0xEA#8]
  { s with cia2 := { s.cia2 with icrLatch := 1, icrMask := 1, icrFlag := true }, sp := 0xFF }

-- V45.5, with Z clear, and V60.1: the saved PC is the next instruction's, the break bit 0; 7 cycles.
theorem test_irq_entry :
    (after irqState).map (fun t => (t.ram.read 0x01FF, t.ram.read 0x01FE, t.ram.read 0x01FD, t.p.i, t.lineCycles)) =
      some (0x10#8, 0x00#8, 0x20#8, true, 7) := by decide
-- V60.3.
theorem test_nmi_entry : (after nmiState).map (fun t => (t.nmiAck, t.sp, t.p.i)) = some (false, 0xFC#8, true) := by decide
-- V60.11: a load over the I/O range writes the RAM beneath.
theorem test_load_image :
    (after { State.reset with hostPlan := [.host (.loadImage [0x00#8, 0xD0#8, 0xAA#8])] }).map
      (fun t => (t.ram.read 0xD000, t.vic)) = some (0xAA#8, Vic.reset) := by decide
-- V60.9.
theorem test_save_image :
    saveImage (poke [(0x2B, 0x01#8), (0x2C, 0x08#8), (0x2D, 0x03#8), (0x2E, 0x08#8), (0x0801, 0x11#8), (0x0802, 0x22#8)]
      State.reset) = [0x01#8, 0x08#8, 0x11#8, 0x22#8] := by decide
-- V60.7: the call pushes PC - 1 and sets the registers.
theorem test_inject :
    (after { State.reset with pc := 0xC000, sp := 0xF0, hostPlan := [.host (.inject 0xC100 9 8 7)] }).map
      (fun t => (t.a, t.x, t.y, t.pc, t.ram.read 0x01F0, t.ram.read 0x01EF)) =
      some (9#8, 8#8, 7#8, 0xC100#16, 0xBF#8, 0xFF#8) := by decide
-- R461: the host may act between a line's last check and its drawing, and between its drawing and its sound; the loop's place is
-- kept.
theorem test_host_before_draw :
    (after { State.reset with phase := .draw, hostPlan := [.host (.setPC 0xC000)] }).map (fun t => (t.pc, t.phase)) =
      some (0xC000#16, .draw) := by decide
theorem test_host_before_sound :
    (after { State.reset with phase := .sound, hostPlan := [.host (.inject 0xC100 9 8 7)] }).map (fun t => (t.pc, t.phase)) =
      some (0xC100#16, .sound) := by decide
-- V70.1, the vector in the KERNAL image.
theorem test_reset_vector :
    (hostReset { State.reset with cfg := { Params.default with kernalRom := [(0x1FFC, 0xE2#8), (0x1FFD, 0xFC#8)] } }).pc =
      0xFCE2#16 := by decide

/-! Devices (95_test_vectors.md section 5). -/

/-- A timer controller with timer A at 100. -/
def timerAt100 (cra : Byte) : Cia := { Cia.reset with ta := 100, la := 100, cra := cra }

-- V61.2: one underflow, the excess dropped.
theorem test_timer_excess :
    ((timerAt100 0x01).advance 250).ta = 100#16 ∧ ((timerAt100 0x01).advance 250).icrLatch = 1#5 := by decide
-- E4: one-shot mode stops at 0.
theorem test_timer_one_shot : ((timerAt100 0x09).advance 100).cra = 0x08#8 ∧ ((timerAt100 0x09).advance 100).ta = 0#16 := by decide
-- V61.14.
theorem test_port_a : (ciaRead .cia2 0 { State.reset with cia2 := { Cia.reset with ddra := 0x03 } }).1 = 0xFC#8 := by decide
-- V61.11: a serial write in output mode starts the countdown.
theorem test_serial_write : (({ Cia.reset with cra := 0x41 } : Cia).write 0xC 0x55).shiftCount = 16#5 := by decide
-- E5: 11:59:59.9 AM goes to 12:00:00.0 PM.
theorem test_tod_noon : (todInc ⟨0x09, 0x59, 0x59, 0x11⟩ State.reset).1 = ⟨0x00#8, 0x00#8, 0x00#8, 0x92#8⟩ := by decide
-- V62.1.
theorem test_raster_read :
    let s := { State.reset with vic := { Vic.reset with regs := [(0x11, 0x1B#8)], raster := 0x105 } }
    (busRead 0xD011 s).1 = 0x9B#8 ∧ (busRead 0xD012 s).1 = 0x05#8 := by decide
-- V62.7, at the band's edges with YSCROLL 3: 0x33 and 0xF3 are bad lines, 0x2B and 0xFB are not.
theorem test_bad_lines :
    ([0x2B, 0x33, 0x34, 0xF3, 0xFB].map fun r =>
      ({ Vic.reset with regs := [(0x11, 0x1B#8)], raster := BitVec.ofNat 9 r } : Vic).stolen 40) = [0, 40, 0, 40, 0] := by decide
-- V63.3: the accumulator wraps at 24 bits.
theorem test_sound_register_write :
    (busWrite 0xD41F 0x5A State.reset).sid.chip0.regs.read 0x1F = 0x5A#8 := by decide

/-! Witnesses: for each statement with hypotheses, states and operands that meet them. -/

/-- A CPU step in the line's first batch, at its last cycle. -/
def firstBatchState : State := { coded 0xC000 [0xA9#8, 0x80#8] with phase := .firstBatch 63, lineCycles := 30 }

theorem atCpuStep_coded (a : Nat) (code : List Byte) : AtCpuStep (coded a code) :=
  ⟨rfl, rfl, rfl, Or.inr ⟨63, rfl, show (0 : Nat) < 63 by decide⟩⟩

theorem test_witness_decodeOfEncode :
    (Instr.ldaImm 0xFF#8).wellFormed = true ∧ (Instr.jsr 0xFFFF#16).wellFormed = true ∧ (Instr.illegal 0xFF#8).wellFormed = true := by
  decide

theorem test_witness_stepRuns :
    AtCpuStep firstBatchState ∧ (firstBatchState.nmiLine && firstBatchState.nmiAck) = false ∧
    (firstBatchState.irqLine && !firstBatchState.p.i) = false ∧
    ∀ k, k < (encode (.ldaImm 0x80#8)).length → ((Instr.ldaImm 0x80#8) = .brk → k = 0) →
      readRoute firstBatchState.visible (firstBatchState.pc + BitVec.ofNat 16 k) ≠ .io ∧
      (busRead (firstBatchState.pc + BitVec.ofNat 16 k) firstBatchState).1 = (encode (.ldaImm 0x80#8)).getD k 0 :=
  ⟨⟨rfl, rfl, rfl, Or.inl ⟨63, rfl, by decide⟩⟩, by decide, by decide, by decide⟩

theorem test_witness_stepRuns_brk :
    let s := coded 0xCFFF [0x00#8]
    AtCpuStep s ∧ ∀ k, k < (encode .brk).length → (Instr.brk = .brk → k = 0) →
      readRoute s.visible (s.pc + BitVec.ofNat 16 k) ≠ .io ∧ (busRead (s.pc + BitVec.ofNat 16 k) s).1 = (encode .brk).getD k 0 :=
  ⟨atCpuStep_coded _ _, by
    intro k hk h
    obtain rfl := h rfl
    decide⟩

theorem test_witness_lengthsAndBaseCycles :
    Instr.brk.mnemonic ≠ .illegal ∧ State.reset.cfg.cycleTable = nmosCycles := ⟨by decide, rfl⟩

theorem test_witness_operandForms :
    Mode.indy 0xFF#8 ∈ [Mode.zp 0xFF#8, .zpx 0xFF#8, .zpy 0xFF#8, .abs 0, .absx 0, .absy 0, .indx 0xFF#8, .indy 0xFF#8] := by decide

theorem test_witness_loads :
    (Instr.ldaIndy 0xFF#8).mnemonic ∈ [Mnemonic.lda, .ldx, .ldy] ∧ (Instr.ldxZpy 0#8).mnemonic ∈ [Mnemonic.lda, .ldx, .ldy] ∧
    (Instr.ldyAbsx 0#16).mnemonic ∈ [Mnemonic.lda, .ldx, .ldy] := by decide

theorem test_witness_stores :
    ((Instr.staAbs 0x0001#16).mnemonic ∈ [Mnemonic.sta, .stx, .sty] ∧
      effectiveAddress (.abs 0x0001#16) (stepOver (.abs 0x0001#16) State.reset) = 0x0001#16) ∧
    ((Instr.stxAbs 0xFFFF#16).mnemonic ∈ [Mnemonic.sta, .stx, .sty] ∧
      writeRoute State.reset.visible (effectiveAddress (.abs 0xFFFF#16) (stepOver (.abs 0xFFFF#16) State.reset)) ≠ .io) ∧
    (Instr.styZpx 0#8).mnemonic ∈ [Mnemonic.sta, .stx, .sty] := by decide

theorem test_witness_transfers :
    Instr.tax ∈ [Instr.tax, .tay, .txa, .tya, .tsx, .txs] ∧ Instr.txs ∈ [Instr.tax, .tay, .txa, .tya, .tsx, .txs] := by decide

theorem test_witness_pushes : (Instr.pha = .pha ∨ Instr.pha = .php) ∧ (Instr.php = .pha ∨ Instr.php = .php) := by decide

theorem test_witness_decimal : bcdLegal 0x99#8 0x99#8 = true ∧ bcdLegal 0x00#8 0x99#8 = true := by decide

theorem test_witness_addSubtract :
    ((Instr.adcIndx 0#8).mnemonic = .adc ∨ (Instr.adcIndx 0#8).mnemonic = .sbc) ∧
    ((Instr.sbcImm 0#8).mnemonic = .adc ∨ (Instr.sbcImm 0#8).mnemonic = .sbc) := by decide

theorem test_witness_compares :
    (Instr.cmpAbsy 0#16).mnemonic ∈ [Mnemonic.cmp, .cpx, .cpy] ∧ (Instr.cpxImm 0#8).mnemonic ∈ [Mnemonic.cmp, .cpx, .cpy] ∧
    (Instr.cpyZp 0#8).mnemonic ∈ [Mnemonic.cmp, .cpx, .cpy] := by decide

theorem test_witness_logic :
    (Instr.andIndy 0#8).mnemonic ∈ [Mnemonic.and, .ora, .eor] ∧ (Instr.oraImm 0#8).mnemonic ∈ [Mnemonic.and, .ora, .eor] ∧
    (Instr.eorZpx 0#8).mnemonic ∈ [Mnemonic.and, .ora, .eor] := by decide

theorem test_witness_bit : (Instr.bitZp 0#8).mnemonic = .bit ∧ (Instr.bitAbs 0xDC0D#16).mnemonic = .bit := by decide

theorem test_witness_accumulatorShifts :
    Instr.aslAcc ∈ [Instr.aslAcc, .lsrAcc, .rolAcc, .rorAcc] ∧ Instr.rorAcc ∈ [Instr.aslAcc, .lsrAcc, .rolAcc, .rorAcc] := by decide

theorem test_witness_readModifyWrite :
    ((Instr.aslAbsx 0#16).mnemonic ∈ [Mnemonic.asl, .lsr, .rol, .ror, .inc, .dec] ∧ (Instr.aslAbsx 0#16).mode ≠ .acc) ∧
    ((Instr.decZp 0#8).mnemonic ∈ [Mnemonic.asl, .lsr, .rol, .ror, .inc, .dec] ∧ (Instr.decZp 0#8).mode ≠ .acc ∧
      writeRoute State.reset.visible (effectiveAddress (.zp 0#8) (stepOver (.zp 0#8) State.reset)) ≠ .io) := by decide

theorem test_witness_indexRegisters :
    Instr.inx ∈ [Instr.inx, .iny, .dex, .dey] ∧ Instr.dey ∈ [Instr.inx, .iny, .dex, .dey] := by decide

-- The state at the return differs from the one JSR left: the subroutine pushed, pulled and changed A and memory.
theorem test_witness_returnGoesAfterTheCall :
    ∃ (s t u : State), exec (.jsr 0xC10E#16) s = .next t ∧ u.sp = t.sp ∧
      stackByte u (t.sp + 1#8) = stackByte t (t.sp + 1#8) ∧ stackByte u (t.sp + 2#8) = stackByte t (t.sp + 2#8) ∧
      stackByte u t.sp ≠ stackByte t t.sp ∧ u.a ≠ t.a :=
  ⟨{ coded 0xC108 [0x20#8, 0x0E#8, 0xC1#8] with sp := 0xFF }, _,
    poke [(0x01FD, 0x77#8), (0x01FE, 0x0A#8), (0x01FF, 0xC1#8)] { State.reset with sp := 0xFD, a := 0x12 }, rfl, rfl, by decide,
    by decide, by decide, by decide⟩

theorem test_witness_branches :
    let s := { State.reset with p := { Status.reset with c := true } }
    (Instr.bcs 0x80#8, true) ∈
      [(Instr.bcc 0x80#8, !s.p.c), (.bcs 0x80#8, s.p.c), (.beq 0x80#8, s.p.z), (.bmi 0x80#8, s.p.n), (.bne 0x80#8, !s.p.z),
        (.bpl 0x80#8, !s.p.n), (.bvc 0x80#8, !s.p.v), (.bvs 0x80#8, s.p.v)] ∧
    s.cfg.cycleTable = nmosCycles := ⟨by decide, rfl⟩

theorem test_witness_flagInstructions :
    let s := State.reset
    (Instr.sei, { s.p with i := true }) ∈
      [(Instr.nop, s.p), (.clc, { s.p with c := false }), (.cld, { s.p with d := false }), (.cli, { s.p with i := false }),
        (.clv, { s.p with v := false }), (.sec, { s.p with c := true }), (.sed, { s.p with d := true }),
        (.sei, { s.p with i := true })] := by decide

/-- A halted core, with a host's plan and the reset policy. -/
def haltedState (plan : List HostTurn) (allowed : Bool) : State :=
  { State.reset with halted := true, hostPlan := plan, cfg := { Params.default with resetOnHalt := allowed } }

theorem test_witness_illegal :
    ((haltedState [] true).halted = true ∧ ∀ rest, (haltedState [] true).hostPlan ≠ .host .reset :: rest) ∧
    ((haltedState [.host .reset] false).halted = true ∧ (haltedState [.host .reset] false).cfg.resetOnHalt = false) ∧
    ((haltedState [.host .reset] true).halted = true ∧ (haltedState [.host .reset] true).hostPlan = .host .reset :: [] ∧
      (haltedState [.host .reset] true).cfg.resetOnHalt = true) :=
  ⟨⟨rfl, fun rest h => by simp [haltedState] at h⟩, ⟨rfl, rfl⟩, rfl, rfl, rfl⟩

theorem test_witness_interruptEntries :
    (AtCpuStep nmiState ∧ nmiState.nmiLine = true ∧ nmiState.nmiAck = true) ∧
    (AtCpuStep irqState ∧ (irqState.nmiLine && irqState.nmiAck) = false ∧ irqState.irqLine = true ∧ irqState.p.i = false) :=
  ⟨⟨⟨rfl, rfl, rfl, Or.inr ⟨63, rfl, by decide⟩⟩, rfl, rfl⟩,
    ⟨⟨rfl, rfl, rfl, Or.inr ⟨63, rfl, by decide⟩⟩, by decide, rfl, rfl⟩⟩

theorem test_witness_interruptLines : CiaInv irqState.cia1 ∧ CiaInv irqState.cia2 ∧ CiaInv nmiState.cia2 :=
  ⟨⟨by decide, by decide, by decide, by decide, by constructor <;> decide, by constructor <;> decide, by constructor <;> decide⟩,
    ⟨by decide, by decide, by decide, by decide, by constructor <;> decide, by constructor <;> decide, by constructor <;> decide⟩,
    ⟨by decide, by decide, by decide, by decide, by constructor <;> decide, by constructor <;> decide, by constructor <;> decide⟩⟩

theorem test_witness_readsAreRouted :
    let s := State.reset
    (s.visible.basic = true ∧ s.visible.kernal = true ∧ s.visible.io = true) ∧
    ({ s with bankByte := 0x31#8 } : State).visible.char = true ∧ ({ s with bankByte := 0x30#8 } : State).visible =
      ⟨false, false, false, false⟩ := by decide

theorem test_witness_writesAreRouted :
    let f := State.reset.visible
    f.io = true ∧ (0xD000 : Nat) ≤ (0xDFFF#16).toNat ∧ (0xDE00#16).toNat ≤ (0xDFFF : Nat) ∧
    ¬(f.io = true ∧ 0xD000 ≤ (0xCFFF#16).toNat ∧ (0xCFFF#16).toNat ≤ 0xDFFF) := by decide

theorem test_witness_colourWrites :
    State.reset.visible.io = true ∧ (0xD800 : Nat) ≤ (0xD800#16).toNat ∧ (0xDBFF#16).toNat ≤ (0xDBFF : Nat) := by decide

/-- The reset state with one host act planned. -/
def hostState (act : HostAct) : State := { State.reset with hostPlan := [.host act] }

-- V61.12, at CIA1: a timer output that is low pulls port B bit 6 low, whatever the probe.
theorem test_port_b_timer_output :
    (ciaRead .cia1 1 { State.reset with cia1 := { Cia.reset with cra := 0x07, pb6 := false } }).1.getLsbD 6 = false := by
  simp [ciaRead, portRead, State.cia, Cia.outB, Cia.pbonA, Cia.pbonB, Cia.toggleA, Cia.reset, State.reset, setBit]

/-- A save of the bytes 0x0801 and 0x0802, and, with the pointers crossed, of none. -/
def saveState (lo hi : Byte) : State :=
  poke [(0x2B, lo), (0x2C, 0x08#8), (0x2D, hi), (0x2E, 0x08#8), (0x0801, 0x11#8), (0x0802, 0x22#8)] (hostState .saveImage)

-- R465: nothing after the header when the end does not lie above the start.
theorem test_witness_save :
    deliveries (saveState 0x01 0x03) = [.image [0x01#8, 0x08#8, 0x11#8, 0x22#8]] ∧
    deliveries (saveState 0x03 0x03) = [.image [0x03#8, 0x08#8]] ∧ deliveries (saveState 0x04 0x03) = [.image [0x04#8, 0x08#8]] := by
  decide

theorem test_witness_bankTable : State.reset.cfg.bankTable = BankTable.standard := rfl

theorem test_witness_underRom :
    (0xBFFF#16 ≠ 0x0001#16 ∧ readRoute State.reset.visible 0xBFFF#16 = .basicRom ∧
      readRoute (busWrite 0x0001#16 0x36#8 (busWrite 0xBFFF#16 1#8 State.reset)).visible 0xBFFF#16 = .ram) ∧
    (0xE000#16 ≠ 0x0001#16 ∧ readRoute State.reset.visible 0xE000#16 = .kernalRom ∧
      readRoute (busWrite 0x0001#16 0x35#8 (busWrite 0xE000#16 1#8 State.reset)).visible 0xE000#16 = .ram) ∧
    (let s := { State.reset with bankByte := 0x33#8 }
     0xDFFF#16 ≠ 0x0001#16 ∧ readRoute s.visible 0xDFFF#16 = .charRom ∧
      readRoute (busWrite 0x0001#16 0x30#8 (busWrite 0xDFFF#16 1#8 s)).visible 0xDFFF#16 = .ram) := by decide

theorem test_witness_readSideEffects :
    let f := State.reset.visible
    readRoute f 0xCFFF#16 ≠ .io ∧
    (readRoute f 0xD3DE#16 = .io ∧ (0xD3DE#16).toNat ≤ 0xD3FF ∧ (0xD3DE#16).toNat % 64 = 0x1E) ∧
    (readRoute f 0xD01F#16 = .io ∧ (0xD01F#16).toNat ≤ 0xD3FF ∧ (0xD01F#16).toNat % 64 = 0x1F) ∧
    (readRoute f 0xD400#16 = .io ∧
      ¬((0xD400#16).toNat ≤ 0xD3FF ∧ ((0xD400#16).toNat % 64 = 0x1E ∨ (0xD400#16).toNat % 64 = 0x1F)) ∧
      ¬(0xDC00 ≤ (0xD400#16).toNat ∧ (0xD400#16).toNat ≤ 0xDCFF ∧ (0xD400#16).toNat % 16 ∈ [0x8, 0xB, 0xD]) ∧
      ¬(0xDD00 ≤ (0xD400#16).toNat ∧ (0xD400#16).toNat ≤ 0xDDFF ∧ (0xD400#16).toNat % 16 ∈ [0x8, 0xB, 0xD])) := by decide

-- The first and the last copy of the video chip's window, at the indexes each clause names.
theorem test_witness_videoRegisters :
    ([0x00, 0x10, 0x11, 0x12, 0x13, 0x15, 0x16, 0x17, 0x18, 0x19, 0x1A, 0x1D, 0x1E, 0x1F, 0x20, 0x2E, 0x2F, 0x3F].all fun i =>
      readRoute State.reset.visible (BitVec.ofNat 16 (0xD000 + i)) == .io &&
      readRoute State.reset.visible (BitVec.ofNat 16 (0xD000 + 64 * 15 + i)) == .io &&
      writeRoute State.reset.visible (BitVec.ofNat 16 (0xD000 + 64 * 15 + i)) == .io) = true := by decide

/-- A state before raster line 0x33, with control 1 at `v`. -/
def beforeBadLine (v : Byte) : State := { State.reset with vic := { Vic.reset with regs := [(0x11, v)], raster := 0x32 } }

theorem test_witness_rasterAdvances :
    AtCore (beforeBadLine 0x1B#8) ∧ (beforeBadLine 0x1B#8).phase = .lineStart ∧ (beforeBadLine 0x1B#8).cfg.badlineCycles ≠ 0 ∧
    (((after (beforeBadLine 0x1B#8)).map fun t => (t.vic.raster.toNat % 8, t.phase)) = some (3, .lastBatch 23)) ∧
    (((after (beforeBadLine 0x0B#8)).map fun t => t.phase) = some (.firstBatch 63)) :=
  ⟨⟨rfl, rfl, rfl⟩, rfl, by decide, by decide, by decide⟩

/-- A frame row about to be drawn, with registers and RAM. -/
def rowState (r : BitVec 9) (regs : Memory 8) (ram : Memory 8) : State :=
  { State.reset with ram := ram, vic := { Vic.reset with regs := regs, raster := r } }

theorem test_witness_drawing :
    ((0x33 : Nat) ≤ (rowState 0x33 [(0x11, 0x1B#8)] []).vic.raster.toNat ∧
      (rowState 0x33 [(0x11, 0x1B#8)] []).vic.reg 0x11 = 0x1B#8) ∧
    ((rowState 0xFA [(0x11, 0x0B#8)] []).vic.raster.toNat ≤ 0xFA ∧
      ((rowState 0xFA [(0x11, 0x0B#8)] []).vic.reg 0x11).getLsbD 4 = false) ∧
    ¬(0x33 ≤ (rowState 0x32 [] []).vic.raster.toNat ∧ (rowState 0x32 [] []).vic.raster.toNat ≤ 0xFA) ∧
    ¬(0x33 ≤ (rowState 0xFB [] []).vic.raster.toNat ∧ (rowState 0xFB [] []).vic.raster.toNat ≤ 0xFA) := by decide

-- V62.9's sprites: both show frame column 10, and nothing else.
theorem test_witness_collisions :
    let s := rowState 0x33 [(0, 34#8), (1, 0x32#8), (2, 34#8), (3, 0x32#8), (0x11, 0x1B#8), (0x15, 3#8), (0x16, 8#8), (0x18, 0x14#8)]
      [(0x0340, 0x80#8), (0x07F8, 0x0D#8), (0x07F9, 0x0D#8)]
    (spritePixel s 0 0x33 10).isSome = true ∧ (spritePixel s 1 0x33 10).isSome = true ∧ (spritePixel s 1 0x33 11).isSome = false := by
  decide

theorem test_witness_standardText :
    let s := rowState 0xFA [(0x11, 0x1B#8), (0x16, 0x08#8)] []
    s.vic.raster.toNat = 0x33 + 199 ∧ s.vic.reg 0x11 = 0x1B#8 ∧ s.vic.reg 0x16 = 0x08#8 ∧ s.vic.reg 0x15 = 0x00#8 := by decide

theorem test_witness_interruptControl :
    readRoute State.reset.visible (BitVec.ofNat 16 (0xDC00 + 16 * 15 + 0xD)) = .io ∧
    readRoute State.reset.visible (BitVec.ofNat 16 (0xDC00 + 16 * 0 + 0xD)) = .io ∧
    readRoute State.reset.visible (BitVec.ofNat 16 (0xDD00 + 16 * 15 + 0xD)) = .io := by decide

theorem test_witness_timerA :
    (let c := timerAt100 0x01
     c.cra.getLsbD 0 = true ∧ c.cra.getLsbD 5 = false ∧ c.cra.getLsbD 3 = false ∧ (c.ta.toNat : Int) - (100 : Nat) ≤ 0 ∧
      0 < (c.ta.toNat : Int) - (99 : Nat)) ∧
    (timerAt100 0x09).cra.getLsbD 3 = true ∧ (timerAt100 0x21).cra.getLsbD 5 = true ∧ (timerAt100 0x00).cra.getLsbD 0 = false := by
  decide

theorem test_witness_timerB :
    (let c : Cia := { Cia.reset with crb := 0x41#8, tb := 1 }
     c.crb.getLsbD 0 = true ∧ c.crb.getLsbD 3 = false ∧ c.crb.toNat / 32 % 4 = 2 ∧ (c.tb.toNat : Int) - (true.toNat : Nat) ≤ 0) ∧
    (let c : Cia := { Cia.reset with crb := 0x09#8, tb := 2 }
     c.crb.getLsbD 0 = true ∧ c.crb.getLsbD 3 = true ∧ c.crb.toNat / 32 % 4 = 0 ∧ 0 < (c.tb.toNat : Int) - (1 : Nat)) ∧
    (let c : Cia := { Cia.reset with cra := 0x40#8, shiftCount := 1 }
     c.cra.getLsbD 6 = true ∧ c.shiftCount ≠ 0) ∧
    ({ Cia.reset with crb := 0x21#8 } : Cia).crb.toNat / 32 % 4 = 1 := by decide

/-- CIA1 with its clock running at 11:59:59.9 AM. -/
def clockState : State := { State.reset with cia1 := { Cia.reset with tod := ⟨0x09, 0x59, 0x59, 0x11⟩, todRunning := true } }

theorem test_witness_clock :
    LegalTod ⟨0x09#8, 0x59#8, 0x59#8, 0x92#8⟩ ∧ LegalTod ⟨0x00#8, 0x00#8, 0x00#8, 0x01#8⟩ ∧ LegalTod (clockState.cia .cia1).tod ∧
    (clockState.cia .cia1).todRunning = true ∧ (clockState.cia .cia2).todRunning = false :=
  ⟨⟨by decide, by decide, by decide, by decide⟩, ⟨by decide, by decide, by decide, by decide⟩,
    ⟨by decide, by decide, by decide, by decide⟩, rfl, rfl⟩

theorem test_witness_clockWrites :
    ({ Cia.reset with crb := 0x80#8 } : Cia).crb.getLsbD 7 = true ∧ Cia.reset.crb.getLsbD 7 = false := by decide

theorem test_witness_sound :
    readRoute State.reset.visible 0xD400#16 = .io ∧ readRoute State.reset.visible 0xD7FF#16 = .io ∧
    State.reset.cfg.sidMap = [] ∧ (State.reset.sidTarget (loByte 0xD41C#16)).reg = 0x1C#5 := by decide

/-- A voice in Release at full volume. -/
def releaseVoice : Voice := { Voice.reset with env := 0xFF, holdZero := false }

theorem test_witness_release :
    releaseVoice.env = 0xFF#8 ∧ releaseVoice.adsr = .release ∧ releaseVoice.holdZero = false ∧ releaseVoice.expCounter = 0 ∧
    releaseVoice.expPeriod = .p1 := by decide

-- The sample rate is a free value: whatever it is, one clock rate is above it and one is not.
theorem test_witness_samples :
    Sid.reset.sampleAcc + Config.sampleRate < Config.sampleRate + 1 ∧ Config.sampleRate ≤ Sid.reset.sampleAcc + Config.sampleRate := by
  constructor <;> simp [Sid.reset]

/-- The reset state at another place of the line loop, with cycles executed in the line. -/
def loopState (phase : Phase) (cycles : Nat) : State := { State.reset with phase := phase, lineCycles := cycles }

theorem test_witness_lineLoop :
    AtCore (loopState .draw 63) ∧ AtCore (loopState .sound 63) ∧
    (AtCore (loopState (.firstBatch 63) 30) ∧ (loopState (.firstBatch 63) 30).lineCycles < State.reset.cfg.ciaSplit) ∧
    (AtCore (loopState (.firstBatch 63) 31) ∧ State.reset.cfg.ciaSplit ≤ (loopState (.firstBatch 63) 31).lineCycles) ∧
    (AtCore (loopState (.lastBatch 63) 62) ∧ (loopState (.lastBatch 63) 62).lineCycles < 63) ∧
    (AtCore (loopState (.lastBatch 63) 63) ∧ 63 ≤ (loopState (.lastBatch 63) 63).lineCycles) :=
  ⟨⟨rfl, rfl, rfl⟩, ⟨rfl, rfl, rfl⟩, ⟨⟨rfl, rfl, rfl⟩, by decide⟩, ⟨⟨rfl, rfl, rfl⟩, by decide⟩, ⟨⟨rfl, rfl, rfl⟩, by decide⟩,
    ⟨rfl, rfl, rfl⟩, by decide⟩

theorem test_witness_hostReset :
    State.reset.cfg.bankTable = BankTable.standard ∧ State.reset.cfg.resetBankByte = 0x37#8 := by decide

theorem test_witness_hostActs :
    (∀ act, (hostState act).halted = false ∧ (hostState act).inject = none) ∧
    (hostState (.setPC 0xC000)).hostPlan = .host (.setPC 0xC000) :: [] ∧ ([0x01#8] : List Byte).length < 2 ∧
    (hostState (.loadImage [0x00#8, 0xD0#8, 0xAA#8])).hostPlan = .host (.loadImage (0x00#8 :: 0xD0#8 :: [0xAA#8])) :: [] ∧
    ([0xAA#8] : List Byte).length ≤ 0x10000 ∧ (hostState .saveImage).hostPlan = .host .saveImage :: [] :=
  ⟨fun _ => ⟨rfl, rfl⟩, rfl, by decide, rfl, by decide, rfl⟩

/-- A call about to return: the RTS brings SP back to the saved value. -/
def returningState : State :=
  { coded 0xC100 [0x60#8] with sp := 0xEE, inject := some ⟨1, 2, 3, 0xF0, Status.reset, 0xC000⟩ }

theorem test_witness_inject :
    ((hostState (.inject 0xC100 9 8 7)).hostPlan = .host (.inject 0xC100 9 8 7) :: []) ∧
    (returningState.halted = false ∧ returningState.inject = some ⟨1, 2, 3, 0xF0, Status.reset, 0xC000⟩ ∧
      (fetch returningState).1 = .rts ∧ (fetch returningState).2.sp + 2#8 = 0xF0#8) ∧
    (fetch { returningState with pc := 0xC101 }).1 ≠ .rts := by decide

theorem test_witness_memoryInvariant : MemoryInv irqState ∧ ∃ t, step irqState = .next t :=
  ⟨by constructor <;> decide, _, rfl⟩

theorem test_witness_deviceInvariants :
    VicInv State.reset.vic ∧ CiaInv State.reset.cia1 ∧ CiaInv State.reset.cia2 ∧ SidInv State.reset.sid ∧
    ∃ t, step State.reset = .next t :=
  ⟨⟨by decide, by decide, by decide, by decide, by simp [State.reset, Vic.reset], by simp [State.reset, Vic.reset]⟩,
    ⟨by decide, by decide, by decide, by decide, by constructor <;> decide, by constructor <;> decide, by constructor <;> decide⟩,
    ⟨by decide, by decide, by decide, by decide, by constructor <;> decide, by constructor <;> decide, by constructor <;> decide⟩,
    ⟨⟨⟨by decide, by decide⟩, ⟨by decide, by decide⟩, ⟨by decide, by decide⟩⟩,
      ⟨⟨by decide, by decide⟩, ⟨by decide, by decide⟩, ⟨by decide, by decide⟩⟩,
      ⟨⟨by decide, by decide⟩, ⟨by decide, by decide⟩, ⟨by decide, by decide⟩⟩,
      by simp only [State.reset, Sid.reset, List.length_nil]; omega⟩, _, rfl⟩

theorem test_witness_noStepWrites :
    (∃ t, step State.reset = .next t) ∧ step (haltedState [] false) = .fault (.illegalOpcode 0x00#8 0x0000#16) :=
  ⟨⟨_, rfl⟩, rfl⟩

end Sys2Proof.Tests
end

section
/-! SUPPORT. The statements about the bank modes (20_memory R102, R110 to R118), settled from the routing of the bus as facts about
the flags in force and the address, and one equation of `busRead` and `busWrite` per route. -/

namespace Sys2Proof.Machine

/-! The bank table. -/

/-- The bank mode is the bank byte modulo 8 (R102). -/
theorem toNat_bankMode (b : Byte) : (b.extractLsb' 0 3).toNat = b.toNat % 8 := by
  simp [BitVec.extractLsb'_toNat]

/-- The flags in force depend on the bank byte and the bank table alone (R102). -/
theorem visible_congr {s t : State} (hb : t.bankByte = s.bankByte) (hc : t.cfg = s.cfg) : t.visible = s.visible := by
  rw [State.visible, State.visible, hb, hc]

/-- The row of the flags in force, by the bank byte modulo 8 (R102). -/
theorem visible_eq_row (s : State) :
    s.visible =
      match s.bankByte.toNat % 8 with
      | 0 => s.cfg.bankTable.row0
      | 1 => s.cfg.bankTable.row1
      | 2 => s.cfg.bankTable.row2
      | 3 => s.cfg.bankTable.row3
      | 4 => s.cfg.bankTable.row4
      | 5 => s.cfg.bankTable.row5
      | 6 => s.cfg.bankTable.row6
      | _ => s.cfg.bankTable.row7 := by
  rw [← toNat_bankMode s.bankByte]
  rfl

/-- Settles O34: the row is picked by the bank byte modulo 8, and the default rows are those of the standard table. -/
theorem bankTableRows : Obligations.BankTableRows := by
  refine ⟨visible_eq_row, fun s hs => ?_, rfl⟩
  rw [visible_eq_row, hs]
  rfl

/-! The routes. -/

/-- The I/O range as bounds of the address (R104). -/
theorem inIoRange_iff (a : Word) : inIoRange a = true ↔ 0xD000 ≤ a.toNat ∧ a.toNat ≤ 0xDFFF := by
  simp [inIoRange]

theorem eq_bankByteAddress_iff (a : Word) : a = 0x0001#16 ↔ a.toNat = 1 := BitVec.toNat_inj.symm

/-- The routing of a read with its conditions on the number of the address (R110). -/
theorem readRoute_eq (f : BankRow) (a : Word) :
    readRoute f a =
      if f.basic = true ∧ 0xA000 ≤ a.toNat ∧ a.toNat ≤ 0xBFFF then .basicRom
      else if f.kernal = true ∧ 0xE000 ≤ a.toNat then .kernalRom
      else if f.io = true ∧ 0xD000 ≤ a.toNat ∧ a.toNat ≤ 0xDFFF then .io
      else if f.char = true ∧ 0xD000 ≤ a.toNat ∧ a.toNat ≤ 0xDFFF then .charRom
      else if a.toNat = 1 then .bankByte
      else .ram := by
  simp only [readRoute, Bool.and_eq_true, decide_eq_true_eq, inIoRange_iff, eq_bankByteAddress_iff, and_assoc]

/-- The routing of a write with its conditions on the number of the address (R112). -/
theorem writeRoute_eq (f : BankRow) (a : Word) :
    writeRoute f a =
      if a.toNat = 1 then .bankByte
      else if f.io = true ∧ 0xD000 ≤ a.toNat ∧ a.toNat ≤ 0xDFFF then .io
      else .ram := by
  simp only [writeRoute, Bool.and_eq_true, inIoRange_iff, eq_bankByteAddress_iff]

/-- The I/O range is read from the devices while they are visible: no other region that comes first reaches it (R110). -/
theorem readRoute_io {f : BankRow} {a : Word} (h : f.io = true ∧ 0xD000 ≤ a.toNat ∧ a.toNat ≤ 0xDFFF) :
    readRoute f a = .io := by
  rw [readRoute_eq, if_neg (by omega), if_neg (by omega), if_pos h]

/-- The I/O range is written to the devices while they are visible (R112). -/
theorem writeRoute_io {f : BankRow} {a : Word} (h : f.io = true ∧ 0xD000 ≤ a.toNat ∧ a.toNat ≤ 0xDFFF) :
    writeRoute f a = .io := by
  rw [writeRoute_eq, if_neg (by omega), if_pos h]

/-- What is neither the bank byte nor a visible device is written to RAM (R112, R116). -/
theorem writeRoute_ram {f : BankRow} {a : Word} (h1 : a.toNat ≠ 1)
    (h : ¬(f.io = true ∧ 0xD000 ≤ a.toNat ∧ a.toNat ≤ 0xDFFF)) : writeRoute f a = .ram := by
  rw [writeRoute_eq, if_neg h1, if_neg h]

/-- Where a read shows a ROM, a write reaches the RAM beneath: the BASIC and KERNAL images lie outside the I/O range, and the
character image shows only while the devices do not (R112, R116). -/
theorem writeRoute_of_readRoute_rom {f : BankRow} {a : Word}
    (h : readRoute f a = .basicRom ∨ readRoute f a = .kernalRom ∨ readRoute f a = .charRom) : writeRoute f a = .ram := by
  rw [readRoute_eq] at h
  split_ifs at h with hb hk hio hc hone
  · exact writeRoute_ram (by omega) (by omega)
  · exact writeRoute_ram (by omega) (by omega)
  · simp at h
  · exact writeRoute_ram (by omega) hio
  · simp at h
  · simp at h

/-! The bus by route. -/

/-- The routing of a read under the flags in force, with the byte each route gives (R110). -/
theorem busRead_eq (a : Word) (s : State) :
    busRead a s =
      if s.visible.basic = true ∧ 0xA000 ≤ a.toNat ∧ a.toNat ≤ 0xBFFF then
        (Memory.read (w := 8) s.cfg.basicRom (a.toNat - 0xA000), s)
      else if s.visible.kernal = true ∧ 0xE000 ≤ a.toNat then (Memory.read (w := 8) s.cfg.kernalRom (a.toNat - 0xE000), s)
      else if s.visible.io = true ∧ 0xD000 ≤ a.toNat ∧ a.toNat ≤ 0xDFFF then ioRead a s
      else if s.visible.char = true ∧ 0xD000 ≤ a.toNat ∧ a.toNat ≤ 0xDFFF then
        (Memory.read (w := 8) s.cfg.charRom (a.toNat - 0xD000), s)
      else if a.toNat = 1 then (s.bankByte, s)
      else (s.ram.read a.toNat, s) := by
  rw [busRead, readRoute_eq]
  split_ifs <;> rfl

theorem busRead_of_io {a : Word} {s : State} (h : readRoute s.visible a = .io) : busRead a s = ioRead a s := by
  rw [busRead, h]

theorem busRead_of_ram {a : Word} {s : State} (h : readRoute s.visible a = .ram) : busRead a s = (s.ram.read a.toNat, s) := by
  rw [busRead, h]

/-- A byte read from a ROM depends on the flags in force and the images alone (R51, R110). -/
theorem busRead_rom_congr {a : Word} {s t : State} (hv : t.visible = s.visible) (hc : t.cfg = s.cfg)
    (h : readRoute s.visible a = .basicRom ∨ readRoute s.visible a = .kernalRom ∨ readRoute s.visible a = .charRom) :
    (busRead a t).1 = (busRead a s).1 := by
  rw [busRead, busRead, hv, hc]
  rcases h with h | h | h <;> rw [h]

/-- A write of the bank byte also reaches the RAM byte beneath (R114). -/
theorem busWrite_one (v : Byte) (s : State) : busWrite 0x0001#16 v s = { s with bankByte := v, ram := s.ram.write 1 v } := rfl

theorem busWrite_of_io {a : Word} {v : Byte} {s : State} (h : writeRoute s.visible a = .io) : busWrite a v s = ioWrite a v s := by
  rw [busWrite, h]

theorem busWrite_of_ram {a : Word} {v : Byte} {s : State} (h : writeRoute s.visible a = .ram) : busWrite a v s = s.setRam a v := by
  rw [busWrite, h]

/-- The unassigned part of the I/O range ignores a write (R118). -/
theorem ioWrite_unassigned {a : Word} (h : 0xDE00 ≤ a.toNat) (v : Byte) (s : State) : ioWrite a v s = s := by
  simp only [ioWrite]
  rw [if_neg (by omega), if_neg (by omega), if_neg (by omega), if_neg (by omega), if_neg (by omega)]

/-- A write of colour memory stores the low nibble (R117). -/
theorem ioWrite_color {a : Word} (h : 0xD800 ≤ a.toNat ∧ a.toNat ≤ 0xDBFF) (v : Byte) (s : State) :
    ioWrite a v s = { s with color := s.color.write (a.toNat - 0xD800) (v.extractLsb' 0 4) } := by
  simp only [ioWrite]
  rw [if_neg (by omega), if_neg (by omega), if_pos h.2]

/-- A read of colour memory gives the cell under a draw's high nibble (R117). -/
theorem ioRead_color {a : Word} (h : 0xD800 ≤ a.toNat ∧ a.toNat ≤ 0xDBFF) (s : State) :
    ioRead a s = (mixFree 0x0F#8 ((s.color.read (a.toNat - 0xD800)).setWidth 8) s.draw.1, s.draw.2) := by
  simp only [ioRead]
  rw [if_neg (by omega), if_neg (by omega), if_pos h.2]

/-- The low nibble of a colour read is the stored nibble, whatever the draw. -/
theorem extractLsb'_mixFree_nibble (c : BitVec 4) (free : Byte) :
    (mixFree 0x0F#8 (c.setWidth 8) free).extractLsb' 0 4 = c := by
  apply BitVec.eq_of_getElem_eq
  intro i hi
  have hmask : (0x0F#8)[i] = true ∧ (0xF0#8)[i] = false := by
    revert i
    decide
  simp [mixFree, hmask, hi, show i < 8 by omega]

/-- A colour cell reads back the nibble just written while the devices are visible (R117). -/
theorem busRead_color_busWrite {a : Word} {s : State} (hio : s.visible.io = true) (h : 0xD800 ≤ a.toNat ∧ a.toNat ≤ 0xDBFF)
    (v : Byte) : (busRead a (busWrite a v s)).1.extractLsb' 0 4 = v.extractLsb' 0 4 := by
  have hr : s.visible.io = true ∧ 0xD000 ≤ a.toNat ∧ a.toNat ≤ 0xDFFF := ⟨hio, by omega, by omega⟩
  have hv : (busWrite a v s).visible = s.visible := by
    rw [busWrite_of_io (writeRoute_io hr), ioWrite_color h]
    rfl
  rw [busRead_of_io (hv ▸ readRoute_io hr), ioRead_color h, busWrite_of_io (writeRoute_io hr), ioWrite_color h]
  dsimp only
  rw [Memory.read_write_self, extractLsb'_mixFree_nibble]

/-! The statements. -/

/-- Settles O32: the rule's chain of conditions is `readRoute`'s, under the flags in force. -/
theorem readsAreRoutedByBankMode : Obligations.ReadsAreRoutedByBankMode := busRead_eq

/-- Settles O33: each clause is the write's route under its conditions. -/
theorem writesAreRoutedByBankMode : Obligations.WritesAreRoutedByBankMode := by
  intro a v s f t
  refine ⟨fun h1 => ?_, fun hio => ?_, fun ⟨hio, hlo, hhi⟩ => ?_, fun ⟨hio, hcolor⟩ => ⟨?_, ?_⟩,
    fun h1 hio => ?_, busWrite_cfg a v s⟩
  · obtain rfl := (eq_bankByteAddress_iff a).mpr h1
    exact busWrite_one v s
  · exact busWrite_of_io (writeRoute_io hio)
  · exact (busWrite_of_io (writeRoute_io ⟨hio, by omega, hhi⟩)).trans (ioWrite_unassigned hlo v s)
  · exact (busWrite_of_io (writeRoute_io ⟨hio, by omega, by omega⟩)).trans (ioWrite_color hcolor v s)
  · exact busRead_color_busWrite hio hcolor v
  · exact busWrite_of_ram (writeRoute_ram h1 hio)

/-- Settles O35: under a ROM the write is a plain RAM write, which moves neither the flags in force nor the images, and a later
write of the bank byte leaves that RAM byte alone. -/
theorem writesUnderRomReachRam : Obligations.WritesUnderRomReachRam := by
  intro a v mode s ha hrom t
  have ht : t = s.setRam a v := busWrite_of_ram (writeRoute_of_readRoute_rom hrom)
  have hread : t.ram.read a.toNat = v := by rw [ht, State.setRam_ram, Memory.read_write_self]
  refine ⟨?_, hread, fun hram => ?_⟩
  · rw [ht]
    exact busRead_rom_congr (visible_congr rfl rfl) rfl hrom
  · have ha1 : a.toNat ≠ 1 := fun h => ha ((eq_bankByteAddress_iff a).mpr h)
    rw [busRead_of_ram hram, busWrite_one]
    exact (Memory.read_write_ne _ ha1 _).trans hread

end Sys2Proof.Machine
end

section
/-! SUPPORT. The statements about operand forms (30_encoding R170 to R176, R179, R181), the accumulator shifts (44_logic_shift R274
to R277) and JMP (45_control R290), settled from facts about the bytes and the page of a word, the shape of an accumulator shift,
and the frame of an instruction that only reads. -/

namespace Sys2Proof.Machine

/-! Words, their bytes and their pages. -/

/-- The page of an address is its number divided by 256 (R11). -/
theorem toNat_hiByte (w : Word) : (hiByte w).toNat = w.toNat / 256 := by
  simp only [hiByte, BitVec.extractLsb'_toNat, Nat.shiftRight_eq_div_pow]
  omega

theorem toNat_loByte (w : Word) : (loByte w).toNat = w.toNat % 256 := by
  simp [loByte, BitVec.extractLsb'_toNat]

theorem hiByte_eq_iff (v w : Word) : hiByte v = hiByte w ↔ v.toNat / 256 = w.toNat / 256 := by
  rw [← BitVec.toNat_inj, toNat_hiByte, toNat_hiByte]

/-- The low byte counts modulo 256, whatever the page. -/
theorem loByte_add_one (w : Word) : loByte (w + 1#16) = loByte w + 1#8 := by
  apply BitVec.eq_of_toNat_eq
  rw [toNat_loByte, BitVec.toNat_add, BitVec.toNat_add, toNat_loByte]
  simp

/-- A sum of page 0 wraps within it (R172). -/
theorem toNat_zext16_add (u v : Byte) : (zext16 (u + v)).toNat = (u.toNat + v.toNat) % 256 := by
  rw [toNat_zext16, BitVec.toNat_add]

/-- An indexed sum wraps at 0x10000 (R174). -/
theorem toNat_add_zext16 (w : Word) (v : Byte) : (w + zext16 v).toNat = (w.toNat + v.toNat) % 65536 := by
  rw [BitVec.toNat_add, toNat_zext16]

/-- Masking the page of one word and the low byte of another joins those two bytes. -/
theorem pageMask_or_byteMask (v w : Word) : (v &&& 0xFF00#16) ||| (w &&& 0x00FF#16) = wordOf (loByte w) (hiByte v) := by
  apply BitVec.eq_of_getElem_eq
  intro k hk
  have hmask : (0xFF00#16)[k] = decide (8 ≤ k) ∧ (0x00FF#16)[k] = decide (k < 8) := by
    revert k
    decide
  rw [BitVec.getElem_or, BitVec.getElem_and, BitVec.getElem_and, hmask.1, hmask.2]
  unfold wordOf loByte hiByte
  rw [BitVec.getElem_append]
  split
  · next h => simp [h, BitVec.getLsbD_eq_getElem hk]
  · next h =>
    have h8 : 8 + (k - 8) = k := by omega
    simp [h, h8, Nat.not_lt.mp h, BitVec.getLsbD_eq_getElem hk]

/-- The second address of an indirect jump that wraps in its page (R177): the page is the pointer's and the low byte the next. -/
theorem wordOf_loByte_add_one (a : Word) :
    wordOf (loByte a + 1#8) (hiByte a) = (a &&& 0xFF00#16) ||| ((a + 1#16) &&& 0x00FF#16) := by
  rw [pageMask_or_byteMask, loByte_add_one]

/-! Operand forms. -/

/-- A reading form costs one cycle more exactly when its effective address leaves the base's page (R164, R176). -/
theorem readExtra_eq (m : Mode) (s : State) :
    readExtra m s = if (effectiveAddress m s).toNat / 256 = (baseAddress m s).toNat / 256 then 0 else 1 := by
  simp only [readExtra, pageCrossed, bne_iff_ne, ne_eq, hiByte_eq_iff, ite_not]
  exact if_congr eq_comm rfl rfl

/-- A form that adds no index to its base costs no cycle more (R164). -/
theorem readExtra_of_base {m : Mode} {s : State} (h : effectiveAddress m s = baseAddress m s) : readExtra m s = 0 := by
  rw [readExtra_eq, h, if_pos rfl]

/-- The effective address of `indy` (R176): the pointer's word and Y. -/
theorem toNat_effectiveAddress_indy (z : Byte) (s : State) :
    (effectiveAddress (.indy z) s).toNat =
      ((wordOf (zeroPageAt s z) (zeroPageAt s (z + 1#8))).toNat + s.y.toNat) % 65536 := by
  rw [← zeroPagePointer_eq]
  exact toNat_add_zext16 _ _

/-- Settles O6: each form's address is its base, or its base and an index; only an index can leave the base's page. -/
theorem operandFormsComputeTheirAddresses : Obligations.OperandFormsComputeTheirAddresses := by
  intro s b w
  have hx : (effectiveAddress (.absx w) s).toNat = (w.toNat + s.x.toNat) % 65536 := toNat_add_zext16 w s.x
  have hy : (effectiveAddress (.absy w) s).toNat = (w.toNat + s.y.toNat) % 65536 := toNat_add_zext16 w s.y
  have hindy := toNat_effectiveAddress_indy b s
  refine ⟨rfl, rfl, rfl, toNat_zext16_add b s.x, toNat_zext16_add b s.y, rfl, hx, hy, zeroPagePointer_eq _ s, hindy,
    ?_, ?_, ?_, ?_, ?_⟩
  · simp only [List.forall_mem_cons, List.not_mem_nil, false_implies, implies_true, and_true]
    exact ⟨rfl, rfl, rfl, rfl, rfl, rfl, rfl, rfl⟩
  · rw [readExtra_eq, hx]
    rfl
  · rw [readExtra_eq, hy]
    rfl
  · rw [readExtra_eq, hindy, ← zeroPagePointer_eq]
    rfl
  · simp only [List.forall_mem_cons, List.not_mem_nil, false_implies, implies_true, and_true]
    exact ⟨readExtra_of_base rfl, readExtra_of_base rfl, readExtra_of_base rfl, readExtra_of_base rfl, readExtra_of_base rfl,
      readExtra_of_base rfl, readExtra_of_base rfl⟩

/-! The accumulator shifts. -/

/-- `setNZ` (R13) in the terms of the statements. -/
theorem Status.withNZ_eq_nzOf (p : Status) (v : Byte) : p.withNZ v = nzOf p v := by
  simp only [Status.withNZ, nzOf, beq_eq_decide]

/-- An accumulator shift (R179): its result and status come from A and P, and memory and the devices are as before. -/
theorem modifyInstr_acc_shape (op : Byte) (f : Byte → Status → Byte × Status) (s : State) :
    ∃ t, modifyInstr op .acc f s = .next t ∧ t.pc = s.pc + 1#16 ∧ t.a = (f s.a s.p).1 ∧ t.x = s.x ∧ t.y = s.y ∧ t.sp = s.sp ∧
      t.p = (f s.a s.p).2 ∧ Ran (s.cyclesOf op) s t ∧ SameMemory s t ∧ SameDevices s t := by
  obtain ⟨t, ht, hpc, ⟨ha, hx, hy, hsp, hp⟩, hframe⟩ :=
    impliedInstr_shape (f := fun t => (t.setA (f t.a t.p).1).setP (f t.a t.p).2) (fun _ => rfl) op s
  exact ⟨t, ht, hpc, ha, hx, hy, hsp, hp, hframe⟩

theorem toNat_aslOut (v : Byte) (p : Status) : (aslOut v p).1.toNat = 2 * v.toNat % 256 := by
  show (v <<< 1).toNat = _
  rw [BitVec.toNat_shiftLeft, Nat.shiftLeft_eq]
  omega

theorem toNat_lsrOut (v : Byte) (p : Status) : (lsrOut v p).1.toNat = v.toNat / 2 := by
  show (v >>> 1).toNat = _
  rw [BitVec.toNat_ushiftRight, Nat.shiftRight_eq_div_pow]

/-- The old carry enters bit 0, which the shift left clear (R276). -/
theorem toNat_rolOut (v : Byte) (p : Status) : (rolOut v p).1.toNat = (2 * v.toNat + p.c.toNat) % 256 := by
  show ((v <<< 1) ||| (BitVec.ofBool p.c).setWidth 8).toNat = _
  generalize p.c = c
  revert v c
  decide

/-- The old carry enters bit 7, which the shift left clear (R277). -/
theorem toNat_rorOut (v : Byte) (p : Status) : (rorOut v p).1.toNat = v.toNat / 2 + 128 * p.c.toNat := by
  show ((v >>> 1) ||| ((BitVec.ofBool p.c).setWidth 8 <<< 7)).toNat = _
  generalize p.c = c
  revert v c
  decide

/-- An instruction that shifts the accumulator by `f` (R179), where `f` gives the number `r` and the carry `out`. -/
theorem accumulatorShift_shape {i : Instr} {f : Byte → Status → Byte × Status} {s : State} {r : Nat} {out : Bool}
    (hexec : exec i s = modifyInstr i.opcode .acc f s) (hlen : i.length = 1) (hr : (f s.a s.p).1.toNat = r)
    (hp : (f s.a s.p).2 = Status.withNZ { s.p with c := out } (f s.a s.p).1) :
    ∃ t, exec i s = .next t ∧ t.pc = nextPC i s ∧ t.a.toNat = r ∧ t.x = s.x ∧ t.y = s.y ∧ t.sp = s.sp ∧
      t.p = nzOf { s.p with c := out } t.a ∧ Ran (s.cyclesOf i.opcode) s t ∧ SameMemory s t ∧ SameDevices s t := by
  obtain ⟨t, ht, hpc, ha, hx, hy, hsp, hpt, hframe⟩ := modifyInstr_acc_shape i.opcode f s
  refine ⟨t, hexec.trans ht, ?_, ha ▸ hr, hx, hy, hsp, ?_, hframe⟩
  · rw [hpc, nextPC, hlen]
  · rw [hpt, hp, ha, Status.withNZ_eq_nzOf]

/-- Settles O18: the shape of an accumulator shift, with the result of each shift as a number. -/
theorem accumulatorShifts : Obligations.AccumulatorShifts := by
  intro i s hi r out
  simp only [List.mem_cons, List.not_mem_nil, or_false] at hi
  rcases hi with rfl | rfl | rfl | rfl
  · exact accumulatorShift_shape (exec_asl rfl s) rfl (toNat_aslOut _ _) rfl
  · exact accumulatorShift_shape (exec_lsr rfl s) rfl (toNat_lsrOut _ _) rfl
  · exact accumulatorShift_shape (exec_rol rfl s) rfl (toNat_rolOut _ _) rfl
  · exact accumulatorShift_shape (exec_ror rfl s) rfl (toNat_rorOut _ _) rfl

/-! Jumps. -/

/-- A mnemonic has the forms of a row when its instructions have the row's opcodes and each opcode of the row is one of theirs. -/
theorem hasForms_of {n : Mnemonic} {row : OpcodeRow} (hrow : ∀ i : Instr, i.mnemonic = n → row.at i.mode = some i.opcode)
    (hinstr : ∀ m op, row.at m = some op → ∃ i : Instr, i.mnemonic = n ∧ i.mode = m ∧ i.opcode = op) : HasForms n row := by
  refine fun m op => ⟨?_, hinstr m op⟩
  rintro ⟨i, hn, rfl, rfl⟩
  exact hrow i hn

/-- JMP has its two forms and no other (R166). -/
theorem hasForms_jmp : HasForms .jmp { abs := some 0x4C#8, ind := some 0x6C#8 } := by
  refine hasForms_of (fun i hi => ?_) fun m op h => ?_
  · cases i with
    | jmpAbs a => rfl
    | jmpInd a => rfl
    | _ => cases hi
  · cases m with
    | abs a => exact ⟨.jmpAbs a, rfl, rfl, Option.some.inj h⟩
    | ind a => exact ⟨.jmpInd a, rfl, rfl, Option.some.inj h⟩
    | _ => cases h

/-- `t` differs from `s` in PC and in what a bus read can change (R123) alone. -/
def ReadsOnly (s t : State) : Prop :=
  t = { s with pc := t.pc, vic := t.vic, cia1 := t.cia1, cia2 := t.cia2, nmiAck := t.nmiAck, draws := t.draws }

theorem ReadsOnly.refl (s : State) : ReadsOnly s s := rfl

theorem ReadsOnly.stepOver (m : Mode) (s : State) : ReadsOnly s (stepOver m s) := rfl

theorem ReadsOnly.busRead {s t : State} (h : ReadsOnly s t) (a : Word) : ReadsOnly s (busRead a t).2 := by
  unfold ReadsOnly
  rw [busRead_state, h]

/-- An instruction that sets PC after nothing but reads (R163, R164): `u` is the state the reads leave. -/
theorem finish_setPC_shape {s u : State} (h : ReadsOnly s u) (op : Byte) (pc : Word) :
    ∃ t, finish op 0 (u.setPC pc) = .next t ∧ t.pc = pc ∧ t.p = s.p ∧ SameRegisters s t ∧ Ran (s.cyclesOf op) s t ∧
      SameMemory s t ∧ SameDevices u t := by
  rw [h]
  exact ⟨_, rfl, rfl, rfl, ⟨rfl, rfl, rfl, rfl⟩, ⟨rfl, rfl, ⟨rfl, rfl, rfl, rfl, rfl, rfl, rfl⟩⟩,
    ⟨fun _ => rfl, fun _ => rfl, rfl⟩, ⟨rfl, rfl, rfl, rfl, rfl, rfl⟩⟩

/-- Settles O21: both forms end by setting PC, the indirect one after the two reads of its pointer. -/
theorem jumpsSetPC : Obligations.JumpsSetPC := by
  refine ⟨hasForms_jmp, fun a s => ⟨finish_setPC_shape (.refl s) _ a, ?_⟩⟩
  rw [← wordOf_loByte_add_one]
  exact finish_setPC_shape (((ReadsOnly.stepOver _ s).busRead _).busRead _) _ _

end Sys2Proof.Machine
end

section
/-! SUPPORT. The statement about the loads (41_load_store R200 to R202), settled from the forms of each mnemonic and one description
of the three as a reading instruction. -/

namespace Sys2Proof.Machine

/-! The forms of the loads. -/

/-- LDA has its eight forms and no other (R200). -/
theorem hasForms_lda :
    HasForms .lda
      { imm := some 0xA9#8, zp := some 0xA5#8, zpx := some 0xB5#8, abs := some 0xAD#8, absx := some 0xBD#8
        absy := some 0xB9#8, indx := some 0xA1#8, indy := some 0xB1#8 } := by
  refine hasForms_of (fun i hi => ?_) fun m op h => ?_
  · cases i with
    | ldaImm | ldaZp | ldaZpx | ldaAbs | ldaAbsx | ldaAbsy | ldaIndx | ldaIndy => rfl
    | _ => cases hi
  · cases m with
    | imm v => exact ⟨.ldaImm v, rfl, rfl, Option.some.inj h⟩
    | zp z => exact ⟨.ldaZp z, rfl, rfl, Option.some.inj h⟩
    | zpx z => exact ⟨.ldaZpx z, rfl, rfl, Option.some.inj h⟩
    | abs a => exact ⟨.ldaAbs a, rfl, rfl, Option.some.inj h⟩
    | absx a => exact ⟨.ldaAbsx a, rfl, rfl, Option.some.inj h⟩
    | absy a => exact ⟨.ldaAbsy a, rfl, rfl, Option.some.inj h⟩
    | indx z => exact ⟨.ldaIndx z, rfl, rfl, Option.some.inj h⟩
    | indy z => exact ⟨.ldaIndy z, rfl, rfl, Option.some.inj h⟩
    | _ => cases h

/-- LDX has its five forms and no other: its indexed forms use Y (R201). -/
theorem hasForms_ldx :
    HasForms .ldx { imm := some 0xA2#8, zp := some 0xA6#8, zpy := some 0xB6#8, abs := some 0xAE#8, absy := some 0xBE#8 } := by
  refine hasForms_of (fun i hi => ?_) fun m op h => ?_
  · cases i with
    | ldxImm | ldxZp | ldxZpy | ldxAbs | ldxAbsy => rfl
    | _ => cases hi
  · cases m with
    | imm v => exact ⟨.ldxImm v, rfl, rfl, Option.some.inj h⟩
    | zp z => exact ⟨.ldxZp z, rfl, rfl, Option.some.inj h⟩
    | zpy z => exact ⟨.ldxZpy z, rfl, rfl, Option.some.inj h⟩
    | abs a => exact ⟨.ldxAbs a, rfl, rfl, Option.some.inj h⟩
    | absy a => exact ⟨.ldxAbsy a, rfl, rfl, Option.some.inj h⟩
    | _ => cases h

/-- LDY has its five forms and no other: its indexed forms use X (R202). -/
theorem hasForms_ldy :
    HasForms .ldy { imm := some 0xA0#8, zp := some 0xA4#8, zpx := some 0xB4#8, abs := some 0xAC#8, absx := some 0xBC#8 } := by
  refine hasForms_of (fun i hi => ?_) fun m op h => ?_
  · cases i with
    | ldyImm | ldyZp | ldyZpx | ldyAbs | ldyAbsx => rfl
    | _ => cases hi
  · cases m with
    | imm v => exact ⟨.ldyImm v, rfl, rfl, Option.some.inj h⟩
    | zp z => exact ⟨.ldyZp z, rfl, rfl, Option.some.inj h⟩
    | zpx z => exact ⟨.ldyZpx z, rfl, rfl, Option.some.inj h⟩
    | abs a => exact ⟨.ldyAbs a, rfl, rfl, Option.some.inj h⟩
    | absx a => exact ⟨.ldyAbsx a, rfl, rfl, Option.some.inj h⟩
    | _ => cases h

/-! What a load does. -/

/-- The pseudocode the three loads share (R200 to R202): the mnemonic names the register the byte goes to. -/
def loadRegister (n : Mnemonic) (v : Byte) (s : State) : State :=
  { s with
    a := if n = .lda then v else s.a
    x := if n = .ldx then v else s.x
    y := if n = .ldy then v else s.y
    p := s.p.withNZ v }

theorem loadRegister_cpuOnly (n : Mnemonic) (v : Byte) (s : State) : CpuOnly s (loadRegister n v s) := rfl

/-- A load is a reading instruction that loads the register its mnemonic names. -/
theorem exec_load {i : Instr} (hi : i.mnemonic ∈ [Mnemonic.lda, .ldx, .ldy]) (s : State) :
    exec i s = readInstr i.opcode i.mode (loadRegister i.mnemonic) s := by
  simp only [List.mem_cons, List.not_mem_nil, or_false] at hi
  rcases hi with h | h | h
  · rw [exec_lda h, h]
    rfl
  · rw [exec_ldx h, h]
    rfl
  · rw [exec_ldy h, h]
    rfl

/-- Settles O7: a load has the shape of a reading instruction, whose operand read leaves the registers and the status alone. -/
theorem loadsWriteTheRegisterAndNZ : Obligations.LoadsWriteTheRegisterAndNZ := by
  refine ⟨hasForms_lda, hasForms_ldx, hasForms_ldy, fun i s hi => ?_⟩
  obtain ⟨t, ht, hpc, ⟨ha, hx, hy, hsp, hp⟩, hframe⟩ :=
    readInstr_shape (loadRegister_cpuOnly i.mnemonic) i.opcode i.mode s
  refine ⟨t, (exec_load hi s).trans ht, hpc, ?_, ?_, ?_, ?_, ?_, hframe⟩
  · rw [hp, loadRegister, Status.withNZ_eq_nzOf, readOperand_p]
    rfl
  · rw [ha, loadRegister, readOperand_a]
    rfl
  · rw [hx, loadRegister, readOperand_x]
    rfl
  · rw [hy, loadRegister, readOperand_y]
    rfl
  · rw [hsp, loadRegister, readOperand_sp]
    rfl

end Sys2Proof.Machine
end

section
/-! SUPPORT. The statements about the transfers and the pushes (42_transfer_stack R220 to R227), settled from the one form of an
implied mnemonic, one description of the six transfers, and the shape of an implied instruction that pushes a byte. -/

namespace Sys2Proof.Machine

/-! The mnemonics with the implied form alone. -/

/-- The instruction of a mnemonic that has the implied form and no other (R180). -/
def impliedOf : Mnemonic → Option Instr
  | .tax => some .tax
  | .tay => some .tay
  | .txa => some .txa
  | .tya => some .tya
  | .tsx => some .tsx
  | .txs => some .txs
  | .pha => some .pha
  | .php => some .php
  | .pla => some .pla
  | .plp => some .plp
  | .inx => some .inx
  | .iny => some .iny
  | .dex => some .dex
  | .dey => some .dey
  | .rts => some .rts
  | .rti => some .rti
  | .nop => some .nop
  | .clc => some .clc
  | .cld => some .cld
  | .cli => some .cli
  | .clv => some .clv
  | .sec => some .sec
  | .sed => some .sed
  | .sei => some .sei
  | _ => none

/-- `impliedOf` names the only instruction of its mnemonic, and that instruction is implied. -/
theorem eq_and_mode_of_impliedOf {i j : Instr} (h : impliedOf j.mnemonic = some i) : j = i ∧ j.mode = .impl := by
  cases j <;> cases h <;> exact ⟨rfl, rfl⟩

/-- A mnemonic with an implied instruction alone has that form, with that instruction's opcode, and no other. -/
theorem hasForms_implied {i : Instr} (hi : impliedOf i.mnemonic = some i) : HasForms i.mnemonic { impl := some i.opcode } := by
  have hmode := (eq_and_mode_of_impliedOf hi).2
  refine hasForms_of (fun j hj => ?_) fun m op hop => ?_
  · obtain ⟨rfl, -⟩ := eq_and_mode_of_impliedOf (j := j) (by rw [hj, hi])
    rw [hmode]
    rfl
  · cases m with
    | impl => exact ⟨i, rfl, hmode, Option.some.inj hop⟩
    | _ => cases hop

/-- An implied instruction is one byte long (R161, R180). -/
theorem nextPC_of_implied {i : Instr} (h : i.mode = .impl) (s : State) : nextPC i s = s.pc + 1#16 := by
  rw [nextPC, Instr.length, h]
  rfl

/-! The transfers. -/

/-- The register a transfer copies (R220 to R225). -/
def transferSource (i : Instr) (s : State) : Byte :=
  if i = .tax ∨ i = .tay then s.a else if i = .tya then s.y else if i = .tsx then s.sp else s.x

/-- The pseudocode the six transfers share (R220 to R225): the instruction names the register copied and the one written, and TXS
alone writes no flag. -/
def transfer (i : Instr) (s : State) : State :=
  { s with
    a := if i = .txa ∨ i = .tya then transferSource i s else s.a
    x := if i = .tax ∨ i = .tsx then transferSource i s else s.x
    y := if i = .tay then transferSource i s else s.y
    sp := if i = .txs then transferSource i s else s.sp
    p := if i = .txs then s.p else s.p.withNZ (transferSource i s) }

theorem transfer_cpuOnly (i : Instr) (s : State) : CpuOnly s (transfer i s) := rfl

/-- A transfer is an implied instruction that does its copy. -/
theorem exec_transfer {i : Instr} (hi : i ∈ [Instr.tax, .tay, .txa, .tya, .tsx, .txs]) (s : State) :
    exec i s = impliedInstr i.opcode (transfer i) s := by
  simp only [List.mem_cons, List.not_mem_nil, or_false] at hi
  rcases hi with rfl | rfl | rfl | rfl | rfl | rfl <;> rfl

theorem mode_transfer : ∀ i ∈ [Instr.tax, .tay, .txa, .tya, .tsx, .txs], i.mode = .impl := by decide

/-- Settles O9: a transfer has the shape of an implied instruction that touches the CPU alone, and `transfer` says which
registers it writes. -/
theorem transfersCopyOneRegister : Obligations.TransfersCopyOneRegister := by
  refine ⟨hasForms_implied (i := .tax) rfl, hasForms_implied (i := .tay) rfl, hasForms_implied (i := .txa) rfl,
    hasForms_implied (i := .tya) rfl, hasForms_implied (i := .tsx) rfl, hasForms_implied (i := .txs) rfl, fun i s hi => ?_⟩
  obtain ⟨t, ht, hpc, ⟨ha, hx, hy, hsp, hp⟩, hframe⟩ := impliedInstr_shape (transfer_cpuOnly i) i.opcode s
  refine ⟨t, (exec_transfer hi s).trans ht, ?_, ?_, ha, hx, hy, hsp, hframe⟩
  · rw [hpc, nextPC_of_implied (mode_transfer i hi)]
  · rw [hp, transfer, Status.withNZ_eq_nzOf]
    rfl

/-! The pushes. -/

/-- The status byte holds each flag in its place, bit 5 set and the break bit in bit 4 (R43). -/
theorem packedAs_pack (p : Status) (b : Bool) : PackedAs (p.pack b) p b := by
  obtain ⟨n, v, stored, d, i, z, c⟩ := p
  constructor <;> (revert n v stored d i z c b; decide)

/-- SP one lower, modulo 256 (R14). -/
theorem toNat_byte_sub_one (v : Byte) : (v - 1#8).toNat = (v.toNat + 255) % 256 := by
  bv_omega

/-- An implied instruction that pushes the byte `v` gives of the state after the step over (R14, R41): one byte of page 1 is
written, and SP steps down. -/
theorem impliedInstr_push_shape (op : Byte) (v : State → Byte) (s : State) :
    ∃ t, impliedInstr op (fun u => push (v u) u) s = .next t ∧ t.pc = s.pc + 1#16 ∧ t.p = s.p ∧
      t.a = s.a ∧ t.x = s.x ∧ t.y = s.y ∧ t.sp.toNat = (s.sp.toNat + 255) % 256 ∧
      t.ram.read (stackAddr s.sp).toNat = v (stepOver .impl s) ∧
      Ran (s.cyclesOf op) s t ∧ WrittenAt (stackAddr s.sp) s t ∧ SameDevices s t := by
  simp only [impliedInstr, push_eq]
  exact ⟨_, rfl, rfl, rfl, rfl, rfl, rfl, toNat_byte_sub_one s.sp, Memory.read_write_self _ _ _,
    ⟨rfl, rfl, ⟨rfl, rfl, rfl, rfl, rfl, rfl, rfl⟩⟩,
    ⟨fun _ hk => Memory.read_write_ne _ hk _, fun _ _ => rfl, fun _ => rfl, fun _ => rfl, fun _ => rfl, fun _ => rfl,
      fun _ => rfl, rfl, rfl⟩,
    ⟨rfl, rfl, rfl, rfl, rfl, rfl⟩⟩

/-- Settles O10: both have the shape of an implied instruction that pushes a byte, A for PHA and the packed status for PHP. -/
theorem pushesStoreInPageOne : Obligations.PushesStoreInPageOne := by
  refine ⟨hasForms_implied (i := .pha) rfl, hasForms_implied (i := .php) rfl, ?_⟩
  rintro _ s (rfl | rfl)
  · obtain ⟨t, ht, hpc, hp, ha, hx, hy, hsp, hbyte, hframe⟩ := impliedInstr_push_shape 0x48#8 State.a s
    exact ⟨t, ht, hpc, hp, ha, hx, hy, hsp, rfl, fun _ => hbyte, fun h => (nomatch h), hframe⟩
  · obtain ⟨t, ht, hpc, hp, ha, hx, hy, hsp, hbyte, hframe⟩ := impliedInstr_push_shape 0x08#8 (fun u => u.p.pack true) s
    exact ⟨t, ht, hpc, hp, ha, hx, hy, hsp, rfl, fun h => (nomatch h), fun _ => hbyte ▸ packedAs_pack s.p true, hframe⟩

end Sys2Proof.Machine
end

section
/-! SUPPORT. The statements about arithmetic (43_arithmetic R240, R243 to R248, R251 to R254): the binary helpers as sums of numbers,
the forms of each mnemonic read off the decoder, and one description each of ADC with SBC, the compares, and the index registers'
steps. -/

namespace Sys2Proof.Machine

/-! The binary helpers. -/

/-- The sum of 9 bits is the result and the carry (R240). -/
theorem toNat_addBin (a b : Byte) (c : Bool) :
    (addBin a b c).r.toNat + 256 * (addBin a b c).c.toNat = a.toNat + b.toNat + c.toNat := by
  have hc := c.toNat_le
  show (a.toNat + b.toNat + c.toNat) % 256 + 256 * (decide (0xFF < a.toNat + b.toNat + c.toNat)).toNat = _
  by_cases h : 0xFF < a.toNat + b.toNat + c.toNat
  · rw [decide_eq_true h, Bool.toNat_true]
    omega
  · rw [decide_eq_false h, Bool.toNat_false]
    omega

theorem addBin_c_iff (a b : Byte) (c : Bool) : (addBin a b c).c = true ↔ 256 ≤ a.toNat + b.toNat + c.toNat :=
  decide_eq_true_iff

theorem and_0x80_bne_zero (v : Byte) : (v &&& 0x80#8 != 0#8) = v.msb := by
  revert v
  decide

/-- V in the rule's words (R240): the operands have one sign and the result the other. -/
theorem addBin_v_eq (a b : Byte) (c : Bool) :
    (addBin a b c).v = (a.msb == b.msb && a.msb != (addBin a b c).r.msb) := by
  show (~~~(a ^^^ b) &&& (a ^^^ (addBin a b c).r) &&& 0x80#8 != 0#8) = _
  rw [and_0x80_bne_zero, BitVec.msb_and, BitVec.msb_not, BitVec.msb_xor, BitVec.msb_xor]
  cases a.msb <;> cases b.msb <;> rfl

/-- V is set exactly when the signed sum does not fit a byte (R240). -/
theorem addBin_v_iff (a b : Byte) (c : Bool) :
    (addBin a b c).v = true ↔ a.toInt + b.toInt + c.toNat < -128 ∨ 127 < a.toInt + b.toInt + c.toNat := by
  have hsum := toNat_addBin a b c
  have hcarry := (addBin a b c).c.toNat_le
  have hc := c.toNat_le
  rw [addBin_v_eq]
  simp only [Bool.and_eq_true, beq_iff_eq, bne_iff_ne, ne_eq, BitVec.msb_eq_decide, decide_eq_decide,
    BitVec.toInt_eq_toNat_cond]
  omega

theorem toNat_xor_0xFF (v : Byte) : (v ^^^ 0xFF#8).toNat = 255 - v.toNat := by
  revert v
  decide

theorem toInt_xor_0xFF (v : Byte) : (v ^^^ 0xFF#8).toInt = -1 - v.toInt := by
  revert v
  decide

/-- Settles O12: `addBin` is exact as a sum of numbers and as a sum of signed numbers, and `subBin` adds the complement. -/
theorem binaryAddAndSubtractAreExact : Obligations.BinaryAddAndSubtractAreExact := by
  intro a b c
  have hsum : (subBin a b c).r.toNat + 256 * (subBin a b c).c.toNat = _ := toNat_addBin a (b ^^^ 0xFF#8) c
  have hborrow : (subBin a b c).c = true ↔ _ := addBin_c_iff a (b ^^^ 0xFF#8) c
  have hover : (subBin a b c).v = true ↔ _ := addBin_v_iff a (b ^^^ 0xFF#8) c
  rw [toNat_xor_0xFF] at hsum hborrow
  rw [toInt_xor_0xFF] at hover
  refine ⟨⟨toNat_addBin a b c, addBin_v_iff a b c, rfl, beq_iff_eq⟩, rfl, ?_, hborrow.trans ?_, hover.trans ?_⟩ <;> omega

/-! The forms of ADC, SBC and the compares. -/

/-- The rows of the opcode table for ADC, SBC and the compares (R243 to R248). -/
def arithmeticRow : Mnemonic → Option OpcodeRow
  | .adc => some
    { imm := some 0x69#8, zp := some 0x65#8, zpx := some 0x75#8, abs := some 0x6D#8, absx := some 0x7D#8
      absy := some 0x79#8, indx := some 0x61#8, indy := some 0x71#8 }
  | .sbc => some
    { imm := some 0xE9#8, zp := some 0xE5#8, zpx := some 0xF5#8, abs := some 0xED#8, absx := some 0xFD#8
      absy := some 0xF9#8, indx := some 0xE1#8, indy := some 0xF1#8 }
  | .cmp => some
    { imm := some 0xC9#8, zp := some 0xC5#8, zpx := some 0xD5#8, abs := some 0xCD#8, absx := some 0xDD#8
      absy := some 0xD9#8, indx := some 0xC1#8, indy := some 0xD1#8 }
  | .cpx => some { imm := some 0xE0#8, zp := some 0xE4#8, abs := some 0xEC#8 }
  | .cpy => some { imm := some 0xC0#8, zp := some 0xC4#8, abs := some 0xCC#8 }
  | _ => none

/-- The instruction that an opcode and the operand of a form decode to (R160, R162). -/
def decodedAs (op : Byte) (m : Mode) : Instr := decodeBytes op (m.operandBytes.getD 0 0) (m.operandBytes.getD 1 0)

/-- The opcode of a row decodes to the row's mnemonic in that form, whatever the operand. -/
theorem decodedAs_of_arithmeticRow {n : Mnemonic} {row : OpcodeRow} (hn : arithmeticRow n = some row) {m : Mode} {op : Byte}
    (hop : row.at m = some op) :
    (decodedAs op m).mnemonic = n ∧ (decodedAs op m).mode = m ∧ (decodedAs op m).opcode = op := by
  cases n <;> cases hn
  all_goals
    cases m with
    | abs a | absx a | absy a =>
      cases hop <;> exact ⟨rfl, congrArg _ (Laws.wordOf_bytes a), rfl⟩
    | _ => cases hop <;> exact ⟨rfl, rfl, rfl⟩

/-- ADC, SBC and the compares have the forms of their rows and no other. -/
theorem hasForms_of_arithmeticRow {n : Mnemonic} {row : OpcodeRow} (hn : arithmeticRow n = some row) : HasForms n row := by
  refine hasForms_of (fun i hi => ?_) fun m op hop => ⟨decodedAs op m, decodedAs_of_arithmeticRow hn hop⟩
  subst hi
  cases i <;> cases hn <;> rfl

/-! ADC and SBC. -/

/-- An instruction whose result and flags `out` gives from A, the operand and the status (R243, R244). -/
theorem aluInstr_shape {i : Instr} {s : State} {out : DecimalModel → Byte → Byte → Status → AluOut} {flags : AluOut} {r : Byte}
    (hexec : exec i s = readInstr i.opcode i.mode
      (fun v u => let o := out u.cfg.decimalModel u.a v u.p; (u.setA o.r).setP (u.p.withAlu o)) s)
    (hout : out s.cfg.decimalModel s.a (readOperand i.mode (stepOver i.mode s)).1 s.p = { flags with r := r }) :
    ∃ t, exec i s = .next t ∧ t.pc = nextPC i s ∧ t.a = r ∧
      t.p = { s.p with n := flags.n, v := flags.v, z := flags.z, c := flags.c } ∧ t.x = s.x ∧ t.y = s.y ∧ t.sp = s.sp ∧
      Ran (s.cyclesOf i.opcode + readExtra i.mode (stepOver i.mode s)) s t ∧ SameMemory s t ∧
      SameDevices (readOperand i.mode (stepOver i.mode s)).2 t := by
  obtain ⟨t, ht, hpc, ⟨ha, hx, hy, hsp, hp⟩, hframe⟩ := readInstr_shape
    (f := fun v u => let o := out u.cfg.decimalModel u.a v u.p; (u.setA o.r).setP (u.p.withAlu o))
    (fun _ _ => rfl) i.opcode i.mode s
  simp only [State.setP_a, State.setP_x, State.setP_y, State.setP_sp, State.setP_p, State.setA_a, State.setA_x, State.setA_y,
    State.setA_sp, readOperand_a, readOperand_x, readOperand_y, readOperand_sp, readOperand_p, readOperand_cfg] at ha hx hy hsp hp
  exact ⟨t, hexec.trans ht, hpc, ha.trans (congrArg AluOut.r hout), hp.trans (congrArg s.p.withAlu hout :), hx, hy, hsp, hframe⟩

theorem adcOut_eq (model : DecimalModel) (a m : Byte) (p : Status) :
    adcOut model a m p = if p.d then addDec a m p.c else addBin a m p.c := by
  cases model
  rfl

/-- Decimal mode changes the result of SBC and leaves its flags binary (R242, R244). -/
theorem sbcOut_eq (model : DecimalModel) (a m : Byte) (p : Status) :
    sbcOut model a m p = { subBin a m p.c with r := if p.d then (subDec a m p.c).r else (subBin a m p.c).r } := by
  cases model
  show (if p.d then subDec a m p.c else subBin a m p.c) = _
  split <;> rfl

/-- Settles O14: both take their result and flags from an `AluOut`, which for SBC has binary flags in either mode. -/
theorem addAndSubtractWithCarry : Obligations.AddAndSubtractWithCarry := by
  refine ⟨hasForms_of_arithmeticRow rfl, hasForms_of_arithmeticRow rfl, ?_⟩
  rintro i s (hi | hi)
  · exact aluInstr_shape (exec_adc hi s) (by rw [adcOut_eq, if_pos hi, if_pos hi])
  · exact aluInstr_shape (exec_sbc hi s) (by rw [sbcOut_eq, hi]; rfl)

/-! The compares. -/

/-- `compare` (R245) in the terms of the statements. -/
theorem Status.withCompare_eq (p : Status) (r m : Byte) :
    p.withCompare r m = { p with c := decide (m.toNat ≤ r.toNat), z := decide (r = m), n := (r - m).getLsbD 7 } := by
  simp only [Status.withCompare, beq_eq_decide]

/-- The register a compare mnemonic names (R246 to R248). -/
def comparedRegister (n : Mnemonic) (s : State) : Byte := if n = .cmp then s.a else if n = .cpx then s.x else s.y

/-- A compare is a reading instruction that writes the flags of `compare` alone. -/
theorem exec_compare {i : Instr} (hi : i.mnemonic ∈ [Mnemonic.cmp, .cpx, .cpy]) (s : State) :
    exec i s = readInstr i.opcode i.mode (fun v u => u.setP (u.p.withCompare (comparedRegister i.mnemonic u) v)) s := by
  simp only [List.mem_cons, List.not_mem_nil, or_false] at hi
  rcases hi with h | h | h
  · rw [exec_cmp h, h]
    rfl
  · rw [exec_cpx h, h]
    rfl
  · rw [exec_cpy h, h]
    rfl

/-- Settles O15: a compare has the shape of a reading instruction, whose operand read leaves the register compared alone. -/
theorem comparesWriteCZNOnly : Obligations.ComparesWriteCZNOnly := by
  refine ⟨hasForms_of_arithmeticRow rfl, hasForms_of_arithmeticRow rfl, hasForms_of_arithmeticRow rfl, fun i s hi => ?_⟩
  obtain ⟨t, ht, hpc, ⟨ha, hx, hy, hsp, hp⟩, hframe⟩ := readInstr_shape
    (f := fun v u => u.setP (u.p.withCompare (comparedRegister i.mnemonic u) v)) (fun _ _ => rfl) i.opcode i.mode s
  simp only [State.setP_a, State.setP_x, State.setP_y, State.setP_sp, State.setP_p, comparedRegister, readOperand_a,
    readOperand_x, readOperand_y, readOperand_sp, readOperand_p, Status.withCompare_eq] at ha hx hy hsp hp
  exact ⟨t, (exec_compare hi s).trans ht, hpc, ⟨ha, hx, hy, hsp⟩, hp, hframe⟩

/-! The steps of the index registers. -/

/-- What an index register's step writes (R251 to R254): X or Y, one higher or one lower. -/
def steppedIndex (i : Instr) (s : State) : Byte :=
  let v := if i = .inx ∨ i = .dex then s.x else s.y
  if i = .inx ∨ i = .iny then v + 1#8 else v - 1#8

/-- The pseudocode INX, INY, DEX and DEY share (R251 to R254). -/
def stepIndex (i : Instr) (s : State) : State :=
  { s with
    x := if i = .inx ∨ i = .dex then steppedIndex i s else s.x
    y := if i = .iny ∨ i = .dey then steppedIndex i s else s.y
    p := s.p.withNZ (steppedIndex i s) }

theorem stepIndex_cpuOnly (i : Instr) (s : State) : CpuOnly s (stepIndex i s) := rfl

/-- INX, INY, DEX and DEY are implied instructions that do that step. -/
theorem exec_stepIndex {i : Instr} (hi : i ∈ [Instr.inx, .iny, .dex, .dey]) (s : State) :
    exec i s = impliedInstr i.opcode (stepIndex i) s := by
  simp only [List.mem_cons, List.not_mem_nil, or_false] at hi
  rcases hi with rfl | rfl | rfl | rfl <;> rfl

theorem mode_stepIndex : ∀ i ∈ [Instr.inx, .iny, .dex, .dey], i.mode = .impl := by decide

/-- The step counts modulo 256: one lower is 255 higher. -/
theorem steppedIndex_eq (i : Instr) (s : State) :
    steppedIndex i s = BitVec.ofNat 8
      (if i = .inx ∨ i = .iny then (if i = .inx ∨ i = .dex then s.x else s.y).toNat + 1
       else (if i = .inx ∨ i = .dex then s.x else s.y).toNat + 255) := by
  unfold steppedIndex
  generalize (if i = .inx ∨ i = .dex then s.x else s.y) = v
  split <;> bv_omega

/-- Settles O20: a step of an index register has the shape of an implied instruction that touches the CPU alone. -/
theorem indexRegistersStepByOne : Obligations.IndexRegistersStepByOne := by
  refine ⟨hasForms_implied (i := .inx) rfl, hasForms_implied (i := .iny) rfl, hasForms_implied (i := .dex) rfl,
    hasForms_implied (i := .dey) rfl, fun i s hi => ?_⟩
  obtain ⟨t, ht, hpc, ⟨ha, hx, hy, hsp, hp⟩, hframe⟩ := impliedInstr_shape (stepIndex_cpuOnly i) i.opcode s
  refine ⟨t, (exec_stepIndex hi s).trans ht, ?_, ha, hsp, ?_, ?_, ?_, hframe⟩
  · rw [hpc, nextPC_of_implied (mode_stepIndex i hi)]
  · rw [hx, ← steppedIndex_eq]
    rfl
  · rw [hy, ← steppedIndex_eq]
    rfl
  · rw [hp, ← steppedIndex_eq, stepIndex, Status.withNZ_eq_nzOf]
    rfl

end Sys2Proof.Machine
end

section
/-! SUPPORT. The statements about AND, ORA, EOR and BIT (44_logic_shift R270 to R273), settled from the forms of a mnemonic read
off the decoder with every operand 0, one description of the three combinations, and the one bus read of BIT's operand. -/

namespace Sys2Proof.Machine

/-! The forms of a mnemonic, read off the decoder. -/

/-- The form of a mode (R161): the mode with its operand 0. -/
def formOf : Mode → Mode
  | .imm _ => .imm 0
  | .zp _ => .zp 0
  | .zpx _ => .zpx 0
  | .zpy _ => .zpy 0
  | .abs _ => .abs 0
  | .absx _ => .absx 0
  | .absy _ => .absy 0
  | .ind _ => .ind 0
  | .indx _ => .indx 0
  | .indy _ => .indy 0
  | .rel _ => .rel 0
  | m => m

/-- The forms of R161. -/
def forms : List Mode :=
  [.impl, .acc, .imm 0, .zp 0, .zpx 0, .zpy 0, .abs 0, .absx 0, .absy 0, .ind 0, .indx 0, .indy 0, .rel 0, .brk]

theorem formOf_mem_forms (m : Mode) : formOf m ∈ forms := by
  cases m <;> simp [formOf, forms]

/-- A row has one opcode for a form, whatever the operand (R167). -/
theorem OpcodeRow.at_formOf (row : OpcodeRow) (m : Mode) : row.at (formOf m) = row.at m := by
  cases m <;> rfl

theorem opcode_decodeBytes : ∀ op : Byte, (decodeBytes op 0 0).opcode = op := by decide

/-- The opcode byte alone tells the mnemonic and the form of a documented instruction (R160). -/
theorem decodeBytes_opcode_form {i : Instr} (hi : i.mnemonic ≠ .illegal) :
    (decodeBytes i.opcode 0 0).mnemonic = i.mnemonic ∧ (decodeBytes i.opcode 0 0).mode = formOf i.mode := by
  cases i with
  | illegal op => exact absurd rfl hi
  | _ => constructor <;> simp only [Instr.opcode] <;> rfl

/-- An opcode followed by an operand of its form decodes to its mnemonic with that operand (R160, R162). -/
theorem decodedAs_of_form {i : Instr} (hi : i.mnemonic ≠ .illegal) {m : Mode} (hm : i.mode = formOf m) :
    (decodedAs i.opcode m).mnemonic = i.mnemonic ∧ (decodedAs i.opcode m).mode = m ∧
      (decodedAs i.opcode m).opcode = i.opcode := by
  cases m with
  | impl =>
    cases i with
    | illegal op => exact absurd rfl hi
    | _ => cases hm <;> exact ⟨rfl, rfl, rfl⟩
  | abs a | absx a | absy a | ind a => cases i <;> cases hm <;> exact ⟨rfl, congrArg _ (Laws.wordOf_bytes a), rfl⟩
  | _ => cases i <;> cases hm <;> exact ⟨rfl, rfl, rfl⟩

/-- A mnemonic has the forms of a row when it has them at operand 0: a finite fact about the decoder (R160, R167). -/
theorem hasForms_of_decoder {n : Mnemonic} {row : OpcodeRow} (hn : n ≠ .illegal)
    (hrow : ∀ op : Byte, ∀ form ∈ forms,
      row.at form = some op ↔ (decodeBytes op 0 0).mnemonic = n ∧ (decodeBytes op 0 0).mode = form) :
    HasForms n row := by
  intro m op
  rw [← row.at_formOf, hrow op _ (formOf_mem_forms m)]
  constructor
  · rintro ⟨i, rfl, rfl, rfl⟩
    exact decodeBytes_opcode_form hn
  · rintro ⟨rfl, hm⟩
    have h := decodedAs_of_form hn hm
    rw [opcode_decodeBytes] at h
    exact ⟨decodedAs op m, h⟩

/-! AND, ORA and EOR. -/

/-- What the mnemonic makes of A and the operand (R270 to R272). -/
def logicOut (n : Mnemonic) (a m : Byte) : Byte := if n = .and then a &&& m else if n = .ora then a ||| m else a ^^^ m

/-- The pseudocode AND, ORA and EOR share (R270 to R272). -/
def combineA (n : Mnemonic) (v : Byte) (s : State) : State := (s.setA (logicOut n s.a v)).setNZ (logicOut n s.a v)

theorem combineA_cpuOnly (n : Mnemonic) (v : Byte) (s : State) : CpuOnly s (combineA n v s) := rfl

/-- AND, ORA and EOR are reading instructions that do it. -/
theorem exec_logic {i : Instr} (hi : i.mnemonic ∈ [Mnemonic.and, .ora, .eor]) (s : State) :
    exec i s = readInstr i.opcode i.mode (combineA i.mnemonic) s := by
  simp only [List.mem_cons, List.not_mem_nil, or_false] at hi
  rcases hi with h | h | h
  · rw [exec_and h, h]
    rfl
  · rw [exec_ora h, h]
    rfl
  · rw [exec_eor h, h]
    rfl

/-- Settles O16: the three have the shape of a reading instruction, whose operand read leaves A and the status alone. -/
theorem logicCombinesAccumulator : Obligations.LogicCombinesAccumulator := by
  refine ⟨hasForms_of_decoder (by decide) (by decide), hasForms_of_decoder (by decide) (by decide),
    hasForms_of_decoder (by decide) (by decide), fun i s hi => ?_⟩
  obtain ⟨t, ht, hpc, ⟨ha, hx, hy, hsp, hp⟩, hframe⟩ :=
    readInstr_shape (combineA_cpuOnly i.mnemonic) i.opcode i.mode s
  simp only [combineA, State.setNZ, State.setP_a, State.setP_x, State.setP_y, State.setP_sp, State.setP_p, State.setA_a,
    State.setA_x, State.setA_y, State.setA_sp, State.setA_p, readOperand_a, readOperand_x, readOperand_y, readOperand_sp,
    readOperand_p, Status.withNZ_eq_nzOf] at ha hx hy hsp hp
  exact ⟨t, (exec_logic hi s).trans ht, hpc, ha, hp, hx, hy, hsp, hframe⟩

/-! BIT. -/

/-- Both forms of BIT read their operand from the bus and add no index to its address (R171, R173, R273). -/
theorem readOperand_bit {i : Instr} (hi : i.mnemonic = .bit) (s : State) :
    readOperand i.mode s = busRead (effectiveAddress i.mode s) s ∧ readExtra i.mode s = 0 := by
  cases i with
  | bitZp | bitAbs => exact ⟨rfl, readExtra_of_base rfl⟩
  | _ => cases hi

/-- BIT's flags (R273) in the terms of the statements. -/
theorem Status.withBit_eq (p : Status) (a m : Byte) :
    p.withBit a m = { p with z := decide (a &&& m = 0#8), n := m.getLsbD 7, v := m.getLsbD 6 } := by
  simp only [Status.withBit, beq_eq_decide]

/-- Settles O17: BIT has the shape of a reading instruction that writes the status alone, and its operand read is one bus read. -/
theorem bitTestReadsOnceAndWritesNVZ : Obligations.BitTestReadsOnceAndWritesNVZ := by
  refine ⟨hasForms_of_decoder (by decide) (by decide), fun i s hi => ?_⟩
  obtain ⟨t, ht, hpc, ⟨ha, hx, hy, hsp, hp⟩, hframe⟩ := readInstr_shape
    (f := fun v u => u.setP (u.p.withBit u.a v)) (fun _ _ => rfl) i.opcode i.mode s
  obtain ⟨hread, hextra⟩ := readOperand_bit hi (stepOver i.mode s)
  simp only [State.setP_a, State.setP_x, State.setP_y, State.setP_sp, State.setP_p, readOperand_a, readOperand_x, readOperand_y,
    readOperand_sp, readOperand_p, Status.withBit_eq] at ha hx hy hsp hp
  rw [hread] at hp hframe
  rw [hextra] at hframe
  exact ⟨t, (exec_bit hi s).trans ht, hpc, ⟨ha, hx, hy, hsp⟩, hp, hframe⟩

end Sys2Proof.Machine
end

section
/-! SUPPORT. The statement about the branches (45_control R293 to R301), settled from the one form of a branch
mnemonic, the branch target as a sum of numbers, and one description of the eight branches. -/

namespace Sys2Proof.Machine

/-! The mnemonics with the relative form alone. -/

/-- The branch of a mnemonic that has the relative form and no other (R178, R294 to R301), by its offset. -/
def branchOf : Mnemonic → Option (Byte → Instr)
  | .bcc => some .bcc
  | .bcs => some .bcs
  | .beq => some .beq
  | .bmi => some .bmi
  | .bne => some .bne
  | .bpl => some .bpl
  | .bvc => some .bvc
  | .bvs => some .bvs
  | _ => none

/-- A branch mnemonic has the relative form, with one opcode for every offset, and no other. -/
theorem hasForms_branch {n : Mnemonic} {branch : Byte → Instr} (hn : branchOf n = some branch) :
    HasForms n { rel := some (branch 0).opcode } := by
  refine hasForms_of (fun i hi => ?_) fun m op hop => ?_
  · subst hi
    cases i <;> cases hn <;> rfl
  · cases m with
    | rel d =>
      refine ⟨branch d, ?_⟩
      cases n <;> cases hn <;> exact ⟨rfl, rfl, Option.some.inj hop⟩
    | _ => cases hop

/-! The branches. -/

/-- The branch target (R12, R178) is the next instruction's address plus the signed offset, modulo 0x10000. -/
theorem branchTarget_eq_ofInt (pc : Word) (d : Byte) : branchTarget pc d = BitVec.ofInt 16 ((pc.toNat : Int) + d.toInt) := by
  rw [BitVec.ofInt_add, BitVec.ofInt_natCast, BitVec.ofNat_toNat, BitVec.setWidth_eq]
  rfl

/-- An instruction that sets PC and nothing else, at `extra` cycles above its opcode's cost (R163, R164). -/
theorem finish_setPC_extra_shape (op : Byte) (extra : Nat) (pc : Word) (s : State) :
    ∃ t, finish op extra (s.setPC pc) = .next t ∧ t.pc = pc ∧ t.p = s.p ∧ SameRegisters s t ∧
      Ran (s.cyclesOf op + extra) s t ∧ SameMemory s t ∧ SameDevices s t :=
  ⟨_, rfl, rfl, rfl, ⟨rfl, rfl, rfl, rfl⟩, ⟨rfl, rfl, ⟨rfl, rfl, rfl, rfl, rfl, rfl, rfl⟩⟩,
    ⟨fun _ => rfl, fun _ => rfl, rfl⟩, ⟨rfl, rfl, rfl, rfl, rfl, rfl⟩⟩

/-- The eight branches of offset `d`, each with the condition it tests of the status (R294 to R301). -/
def branches (d : Byte) (p : Status) : List (Instr × Bool) :=
  [(.bcc d, !p.c), (.bcs d, p.c), (.beq d, p.z), (.bmi d, p.n), (.bne d, !p.z), (.bpl d, !p.n), (.bvc d, !p.v), (.bvs d, p.v)]

/-- A branch tests its condition on the status it starts from: the step over the instruction leaves the status alone. -/
theorem exec_branch {d : Byte} {s : State} {i : Instr} {taken : Bool} (hi : (i, taken) ∈ branches d s.p) :
    exec i s = branchInstr i.opcode d (fun _ => taken) s := by
  simp only [branches, List.mem_cons, Prod.mk.injEq, List.not_mem_nil, or_false] at hi
  rcases hi with ⟨rfl, rfl⟩ | ⟨rfl, rfl⟩ | ⟨rfl, rfl⟩ | ⟨rfl, rfl⟩ | ⟨rfl, rfl⟩ | ⟨rfl, rfl⟩ | ⟨rfl, rfl⟩ | ⟨rfl, rfl⟩ <;> rfl

/-- Every branch costs 2 cycles in the default table (R9, R293). -/
theorem nmosCycles_branch {d : Byte} {p : Status} : ∀ b ∈ branches d p, nmosCycles.getD b.1.opcode.toNat 0 = 2 := by
  simp only [branches, List.forall_mem_cons, List.not_mem_nil, false_implies, implies_true, and_true]
  exact ⟨rfl, rfl, rfl, rfl, rfl, rfl, rfl, rfl⟩

/-- A branch sets PC to its target when taken and to the next instruction's address when not; a target in that address's page
costs one cycle and one outside it two (R164, R293). -/
theorem branchInstr_eq (op d : Byte) (taken : Bool) (s : State) :
    let next := s.pc + 2#16
    let target := branchTarget next d
    branchInstr op d (fun _ => taken) s =
      finish op (if taken then (if target.toNat / 256 = next.toNat / 256 then 1 else 2) else 0)
        (s.setPC (if taken then target else next)) := by
  intro next target
  cases taken with
  | false => rfl
  | true =>
    have hpage : hiByte next = hiByte target ↔ target.toNat / 256 = next.toNat / 256 := by rw [hiByte_eq_iff, eq_comm]
    show finish op (if hiByte next = hiByte target then 1 else 2) (s.setPC target) = _
    simp only [hpage, if_true]

/-- Settles O24: a branch sets PC and nothing else, at its opcode's cost and the cycles of a branch taken. -/
theorem branchesFollowTheirFlag : Obligations.BranchesFollowTheirFlag := by
  refine ⟨hasForms_branch (branch := .bcc) rfl, hasForms_branch (branch := .bcs) rfl, hasForms_branch (branch := .beq) rfl,
    hasForms_branch (branch := .bmi) rfl, hasForms_branch (branch := .bne) rfl, hasForms_branch (branch := .bpl) rfl,
    hasForms_branch (branch := .bvc) rfl, hasForms_branch (branch := .bvs) rfl, fun d s i taken hi => ?_⟩
  intro next target extra
  have hexec : exec i s = finish i.opcode extra (s.setPC (if taken then target else next)) := by
    rw [exec_branch hi, branchInstr_eq, branchTarget_eq_ofInt]
  obtain ⟨t, ht, hpc, hp, hreg, hran, hmem, hdev⟩ :=
    finish_setPC_extra_shape i.opcode extra (if taken then target else next) s
  refine ⟨t, hexec.trans ht, hpc, hp, hreg, hran, hmem, hdev, fun hcfg => ?_⟩
  rw [State.cyclesOf, hcfg]
  exact nmosCycles_branch _ hi

end Sys2Proof.Machine
end

section
/-! SUPPORT. The statement about NOP and the flag instructions (45_control R304, 46_flags R320 to R326), settled from the one form of
an implied mnemonic and one description of the eight instructions by the status each leaves. -/

namespace Sys2Proof.Machine

/-- NOP and the seven flag instructions, each with the status it leaves of `p` (R304, R320 to R326). -/
def flagWrites (p : Status) : List (Instr × Status) :=
  [(.nop, p), (.clc, { p with c := false }), (.cld, { p with d := false }), (.cli, { p with i := false }),
    (.clv, { p with v := false }), (.sec, { p with c := true }), (.sed, { p with d := true }), (.sei, { p with i := true })]

/-- Each of the eight is an implied instruction that sets the status alone: the step over the instruction leaves the status it
starts from, which NOP sets again. -/
theorem exec_flagWrites {i : Instr} {p : Status} {s : State} (hi : (i, p) ∈ flagWrites s.p) :
    exec i s = impliedInstr i.opcode (fun t => t.setP p) s := by
  simp only [flagWrites, List.mem_cons, Prod.mk.injEq, List.not_mem_nil, or_false] at hi
  rcases hi with ⟨rfl, rfl⟩ | ⟨rfl, rfl⟩ | ⟨rfl, rfl⟩ | ⟨rfl, rfl⟩ | ⟨rfl, rfl⟩ | ⟨rfl, rfl⟩ | ⟨rfl, rfl⟩ | ⟨rfl, rfl⟩ <;> rfl

theorem mode_flagWrites {p : Status} : ∀ b ∈ flagWrites p, b.1.mode = .impl := by
  simp only [flagWrites, List.forall_mem_cons, List.not_mem_nil, false_implies, implies_true, and_true]
  exact ⟨rfl, rfl, rfl, rfl, rfl, rfl, rfl, rfl⟩

/-- Settles O27: each has the shape of an implied instruction that touches the CPU alone, and of the CPU it sets the status. -/
theorem flagInstructionsWriteOneFlag : Obligations.FlagInstructionsWriteOneFlag := by
  refine ⟨hasForms_implied (i := .nop) rfl, hasForms_implied (i := .clc) rfl, hasForms_implied (i := .cld) rfl,
    hasForms_implied (i := .cli) rfl, hasForms_implied (i := .clv) rfl, hasForms_implied (i := .sec) rfl,
    hasForms_implied (i := .sed) rfl, hasForms_implied (i := .sei) rfl, fun s i p hi => ?_⟩
  obtain ⟨t, ht, hpc, ⟨ha, hx, hy, hsp, hp⟩, hframe⟩ :=
    impliedInstr_shape (f := fun u => u.setP p) (fun _ => rfl) i.opcode s
  exact ⟨t, (exec_flagWrites hi).trans ht, hpc.trans (nextPC_of_implied (mode_flagWrites _ hi) s).symm, hp,
    ⟨ha, hx, hy, hsp⟩, hframe⟩

end Sys2Proof.Machine
end

section
/-! SUPPORT. The statement about the two hardware interrupt entries (60_exceptions R420 to R424), settled from the whole state an
entry leaves: the three bytes it pushes on the stack page, and the vector it reads above 0xE000, where a read is pure and the
pushes do not reach. -/

namespace Sys2Proof.Machine

/-! The step. -/

/-- At a CPU step the whole machine's step is the CPU's (R420, R440). -/
theorem step_of_atCpuStep {s : State} (h : AtCpuStep s) : step s = cpuStep s := by
  obtain ⟨hrun, hcall, hhost, hplace⟩ := h
  have hcore : step s = coreStep s := by simp [step, machineStep, boundaryStep, hrun, hcall, hhost]
  rw [hcore, coreStep]
  rcases hplace with ⟨_, hphase, hlt⟩ | ⟨_, hphase, hlt⟩ <;> simp only [hphase, if_pos hlt]

theorem cpuStep_nmi {s : State} (h : (s.nmiLine && s.nmiAck) = true) : cpuStep s = .next (enterNMI s) := by
  rw [cpuStep, if_pos h]

theorem cpuStep_irq {s : State} (hnmi : (s.nmiLine && s.nmiAck) = false) (hirq : (s.irqLine && !s.p.i) = true) :
    cpuStep s = .next (enterIRQ s) := by
  rw [cpuStep, hnmi, if_neg Bool.false_ne_true, if_pos hirq]

/-! The vector. -/

/-- A read from 0xE000 up is pure: the KERNAL image when it is visible, else RAM (R110, R123). -/
theorem busRead_high {a : Word} {s : State} (h : 0xE000 ≤ a.toNat) :
    busRead a s =
      (if s.visible.kernal then Memory.read (w := 8) s.cfg.kernalRom (a.toNat - 0xE000) else s.ram.read a.toNat, s) := by
  rw [busRead_eq, if_neg (by omega)]
  by_cases hk : s.visible.kernal = true
  · rw [if_pos ⟨hk, h⟩, if_pos hk]
  · rw [if_neg fun hc => hk hc.1, if_neg (by omega), if_neg (by omega), if_neg (by omega), if_neg hk]

/-- Both bytes of a vector are read from 0xE000 up, low byte first, and the reads are pure (R14, R421). -/
theorem busRead16_vector {vector : Word} (h : 0xE000 ≤ vector.toNat ∧ vector.toNat < 0xFFFF) (s : State) :
    busRead16 vector s = (vectorWord s vector, s) := by
  have hnext : (vector + 1#16).toNat = vector.toNat + 1 := by
    rw [BitVec.toNat_add]
    exact Nat.mod_eq_of_lt (Nat.succ_lt_succ h.2)
  rw [busRead16, busRead_high h.1, busRead_high (by omega), hnext]
  rfl

/-- A vector read depends on the bank byte, the parameters, and the RAM above the stack page (R110). -/
theorem vectorWord_congr {s t : State} (hbank : t.bankByte = s.bankByte) (hcfg : t.cfg = s.cfg)
    (hram : ∀ k, 0x200 ≤ k → t.ram.read k = s.ram.read k) {vector : Word} (h : 0xE000 ≤ vector.toNat) :
    vectorWord t vector = vectorWord s vector := by
  simp only [vectorWord, visible_congr hbank hcfg, hcfg, hram vector.toNat (by omega), hram (vector.toNat + 1) (by omega)]

/-! The stack. -/

/-- RAM after an interrupt entry: PC, high byte first, and the status with break bit `b` on the stack page (R421). -/
def savedOnStack (b : Bool) (s : State) : Memory 8 :=
  ((s.ram.write (stackAddr s.sp).toNat (hiByte s.pc)).write (stackAddr (s.sp - 1#8)).toNat (loByte s.pc)).write
    (stackAddr (s.sp - 2#8)).toNat (s.p.pack b)

theorem toNat_stackAddr_ne {p q : Byte} (h : p ≠ q) : (stackAddr p).toNat ≠ (stackAddr q).toNat :=
  fun e => h (stackAddr_inj (BitVec.eq_of_toNat_eq e))

theorem savedOnStack_high (b : Bool) (s : State) : (savedOnStack b s).read (stackAddr s.sp).toNat = hiByte s.pc := by
  rw [savedOnStack, Memory.read_write_ne _ (toNat_stackAddr_ne (by bv_omega)),
    Memory.read_write_ne _ (toNat_stackAddr_ne (by bv_omega)), Memory.read_write_self]

theorem savedOnStack_low (b : Bool) (s : State) :
    (savedOnStack b s).read (stackAddr (s.sp - 1#8)).toNat = loByte s.pc := by
  rw [savedOnStack, Memory.read_write_ne _ (toNat_stackAddr_ne (by bv_omega)), Memory.read_write_self]

theorem savedOnStack_status (b : Bool) (s : State) :
    (savedOnStack b s).read (stackAddr (s.sp - 2#8)).toNat = s.p.pack b :=
  Memory.read_write_self _ _ _

theorem savedOnStack_rest (b : Bool) (s : State) {k : Nat} (h0 : k ≠ (stackAddr s.sp).toNat)
    (h1 : k ≠ (stackAddr (s.sp - 1#8)).toNat) (h2 : k ≠ (stackAddr (s.sp - 2#8)).toNat) :
    (savedOnStack b s).read k = s.ram.read k := by
  rw [savedOnStack, Memory.read_write_ne _ h2, Memory.read_write_ne _ h1, Memory.read_write_ne _ h0]

/-- An entry writes nothing above the stack page (R41). -/
theorem savedOnStack_above (b : Bool) (s : State) {k : Nat} (hk : 0x200 ≤ k) : (savedOnStack b s).read k = s.ram.read k := by
  have hpage (p : Byte) : k ≠ (stackAddr p).toNat := by
    rw [toNat_stackAddr]
    omega
  exact savedOnStack_rest b s (hpage _) (hpage _) (hpage _)

/-! The entry. -/

/-- The state of an interrupt entry before it reads its vector: PC and P on the stack, I set (R421). -/
def interruptSaved (b : Bool) (s : State) : State :=
  { s with ram := savedOnStack b s, sp := s.sp - 3#8, p := { s.p with i := true } }

/-- The whole state an interrupt through a vector above 0xE000 leaves (R421): the vector is the one of the state before, for
the pushes stay on the stack page. -/
theorem takeInterrupt_vector (b : Bool) {vector : Word} (h : 0xE000 ≤ vector.toNat ∧ vector.toNat < 0xFFFF) (s : State) :
    takeInterrupt b vector s = (interruptSaved b s).setPC (vectorWord s vector) := by
  have hvector : vectorWord (interruptSaved b s) vector = vectorWord s vector :=
    vectorWord_congr (s := s) (t := interruptSaved b s) rfl rfl (fun _ => savedOnStack_above b s) h.1
  calc takeInterrupt b vector s
    _ = (busRead16 vector (interruptSaved b s)).2.setPC (busRead16 vector (interruptSaved b s)).1 :=
        takeInterrupt_eq b vector s
    _ = (interruptSaved b s).setPC (vectorWord s vector) := by rw [busRead16_vector h, hvector]

/-- A hardware entry through a vector above 0xE000, whatever it makes of the NMI acknowledge latch first, saves PC and P and
changes nothing else (R421, R424). -/
theorem enterInterrupt_entered {vector : Word} (h : 0xE000 ≤ vector.toNat ∧ vector.toNat < 0xFFFF) (ack : Bool) (s : State) :
    Entered false vector s.pc 7 s (enterInterrupt vector { s with nmiAck := ack }) ∧
      (enterInterrupt vector { s with nmiAck := ack }).nmiAck = ack := by
  rw [enterInterrupt, takeInterrupt_vector false h]
  exact
    ⟨{ high := savedOnStack_high false s
       low := savedOnStack_low false s
       status := savedOnStack_status false s ▸ packedAs_pack s.p false
       rest := fun _ => savedOnStack_rest false s
       color := fun _ => rfl
       bank := rfl
       sp := rfl
       flags := rfl
       pc := rfl
       a := rfl
       x := rfl
       y := rfl
       ran := ⟨rfl, rfl, ⟨rfl, rfl, rfl, rfl, rfl, rfl, rfl⟩⟩
       vic := rfl
       cia1 := rfl
       cia2 := rfl
       sid := rfl
       draws := rfl }, rfl⟩

/-- Settles O29: at a CPU step the machine's step is the entry that the lines and latches pick; the NMI's is an entry with the
acknowledge latch closed first, the IRQ's one with the latch as it stands. -/
theorem interruptEntriesAreSteps : Obligations.InterruptEntriesAreSteps := by
  refine ⟨fun s hs hline hack => ?_, fun s hs hnmi hline hi => ?_⟩
  · have hstep : step s = .next (enterNMI s) := (step_of_atCpuStep hs).trans (cpuStep_nmi (by simp [hline, hack]))
    exact ⟨_, hstep, enterInterrupt_entered (by decide) false s⟩
  · have hstep : step s = .next (enterIRQ s) := (step_of_atCpuStep hs).trans (cpuStep_irq hnmi (by simp [hline, hi]))
    exact ⟨_, hstep, enterInterrupt_entered (by decide) s.nmiAck s⟩

end Sys2Proof.Machine
end

section
/-! SUPPORT. The statements about the timer controllers (61_timer_controller R526, R531, R532, R540 to R544, R553), settled from
the windows of the two controllers on the bus, one equation per case of a timer at a check, and what a read and a write of a
clock register give. -/

namespace Sys2Proof.Machine

/-! The windows of the two controllers on the bus. -/

/-- The first address of a controller's window of 256 bytes (R104, R500). -/
def CiaId.window : CiaId → Nat
  | .cia1 => 0xDC00
  | .cia2 => 0xDD00

/-- What is read from a device is written to it: the other reads of the I/O range come second, and the bank byte lies below it
(R110, R112). -/
theorem writeRoute_of_readRoute_io {f : BankRow} {a : Word} (h : readRoute f a = .io) : writeRoute f a = .io := by
  rw [readRoute_eq] at h
  split_ifs at h with hb hk hio
  exact writeRoute_io hio

theorem ioRead_cia {id : CiaId} {a : Word} (h : id.window ≤ a.toNat ∧ a.toNat < id.window + 0x100) (s : State) :
    ioRead a s = ciaRead id (a.extractLsb' 0 4) s := by
  cases id <;> simp only [CiaId.window] at h <;> simp only [ioRead]
  · rw [if_neg (by omega), if_neg (by omega), if_neg (by omega), if_pos (by omega)]
  · rw [if_neg (by omega), if_neg (by omega), if_neg (by omega), if_neg (by omega), if_pos (by omega)]

theorem ioWrite_cia {id : CiaId} {a : Word} (h : id.window ≤ a.toNat ∧ a.toNat < id.window + 0x100) (v : Byte) (s : State) :
    ioWrite a v s = s.setCia id ((s.cia id).write (a.extractLsb' 0 4) v) := by
  cases id <;> simp only [CiaId.window] at h <;> simp only [ioWrite]
  · rw [if_neg (by omega), if_neg (by omega), if_neg (by omega), if_pos (by omega)]
    rfl
  · rw [if_neg (by omega), if_neg (by omega), if_neg (by omega), if_neg (by omega), if_pos (by omega)]
    rfl

/-- The mirrors of register `r` in a window lie 16 bytes apart, and the low four bits of each are `r` (R500). -/
theorem ciaMirror (id : CiaId) {m r : Nat} (hm : m < 16) (hr : r < 16) :
    (id.window ≤ (BitVec.ofNat 16 (id.window + 16 * m + r)).toNat ∧
        (BitVec.ofNat 16 (id.window + 16 * m + r)).toNat < id.window + 0x100) ∧
      (BitVec.ofNat 16 (id.window + 16 * m + r)).extractLsb' 0 4 = BitVec.ofNat 4 r := by
  have hw : id.window = 0xDC00 ∨ id.window = 0xDD00 := by cases id <;> simp [CiaId.window]
  have ha : (BitVec.ofNat 16 (id.window + 16 * m + r)).toNat = id.window + 16 * m + r := by
    rw [BitVec.toNat_ofNat]
    omega
  refine ⟨by omega, BitVec.eq_of_toNat_eq ?_⟩
  rw [BitVec.extractLsb'_toNat, ha, BitVec.toNat_ofNat, Nat.shiftRight_zero]
  omega

/-- A read of a mirror of a controller's register is the register's (R500, R510). -/
theorem busRead_ciaMirror (id : CiaId) {m r : Nat} (hm : m < 16) (hr : r < 16) {s : State}
    (h : readRoute s.visible (BitVec.ofNat 16 (id.window + 16 * m + r)) = .io) :
    busRead (BitVec.ofNat 16 (id.window + 16 * m + r)) s = ciaRead id (BitVec.ofNat 4 r) s := by
  obtain ⟨hin, hlow⟩ := ciaMirror id hm hr
  rw [busRead_of_io h, ioRead_cia hin, hlow]

/-- A write of a mirror of a controller's register is the register's (R500, R520). -/
theorem busWrite_ciaMirror (id : CiaId) {m r : Nat} (hm : m < 16) (hr : r < 16) (v : Byte) {s : State}
    (h : readRoute s.visible (BitVec.ofNat 16 (id.window + 16 * m + r)) = .io) :
    busWrite (BitVec.ofNat 16 (id.window + 16 * m + r)) v s = s.setCia id ((s.cia id).write (BitVec.ofNat 4 r) v) := by
  obtain ⟨hin, hlow⟩ := ciaMirror id hm hr
  rw [busWrite_of_io (writeRoute_of_readRoute_io h), ioWrite_cia hin, hlow]

/-! The interrupt register. -/

/-- The number of the byte with the composite in bit 7 and the latch in bits 4 to 0 (R531). -/
theorem toNat_icrByte (flag : Bool) (latch : BitVec 5) :
    (BitVec.ofBool flag ++ 0#2 ++ latch).toNat = latch.toNat + 128 * flag.toNat := by
  revert flag latch
  decide

/-- A mask bit written as 1 takes bit 7 of the byte, and one written as 0 stays (R532). -/
theorem Cia.writeIcr_mask (c : Cia) (v : Byte) {k : Nat} (hk : k < 5) :
    (c.writeIcr v).icrMask.getLsbD k = if v.getLsbD k then v.getLsbD 7 else c.icrMask.getLsbD k := by
  simp only [Cia.writeIcr, Cia.recompose]
  cases v.getLsbD 7 <;> cases hv : v.getLsbD k <;> simp [hv, hk]

/-- Settles O43: the address is a mirror of register 0x0D, whose read and write are `readIcr` and `writeIcr`. -/
theorem interruptControlRegister : Obligations.InterruptControlRegister := by
  intro s m v hm
  constructor <;> intro a h
  · have hread : busRead a s = ciaRead .cia1 0xD#4 s := busRead_ciaMirror .cia1 hm (by decide) h
    have hwrite : busWrite a v s = s.setCia .cia1 (s.cia1.writeIcr v) := busWrite_ciaMirror .cia1 hm (by decide) v h
    rw [hread, hwrite]
    exact ⟨toNat_icrByte _ _, rfl, rfl, rfl, fun _ => s.cia1.writeIcr_mask v, rfl⟩
  · have hread : busRead a s = ciaRead .cia2 0xD#4 s := busRead_ciaMirror .cia2 hm (by decide) h
    have hwrite : busWrite a v s = s.setCia .cia2 (s.cia2.writeIcr v) := busWrite_ciaMirror .cia2 hm (by decide) v h
    rw [hread, hwrite]
    exact ⟨toNat_icrByte _ _, rfl, rfl, rfl, fun _ => s.cia2.writeIcr_mask v, rfl⟩

/-! Timer A at a check. -/

/-- Timer A counts the cycles of a check: it is started, it is clocked by cycles, and some passed (R540). -/
def Cia.CountsA (c : Cia) (delta : Nat) : Prop := c.startA = true ∧ c.cntA = false ∧ 0 < delta

theorem Cia.countsA_iff (c : Cia) (delta : Nat) :
    (c.startA && !c.cntA && decide (0 < delta)) = true ↔ c.CountsA delta := by
  simp [Cia.CountsA, and_assoc]

theorem Cia.advanceA_idle {c : Cia} {delta : Nat} (h : ¬c.CountsA delta) : c.advanceA delta = (c, false) := by
  rw [Cia.advanceA, if_neg (mt (c.countsA_iff delta).mp h)]

/-- Timer A at or below zero underflows once; what is left over is dropped (R540). -/
theorem Cia.advanceA_underflow {c : Cia} {delta : Nat} (h : c.CountsA delta) (hle : c.ta.toNat ≤ delta) :
    c.advanceA delta =
      ({ c with
          icrLatch := c.icrLatch ||| 1#5
          pb6 := !c.pb6
          ta := if c.oneShotA then 0 else c.la
          cra := if c.oneShotA then c.cra &&& 0xFE#8 else c.cra }, true) := by
  rw [Cia.advanceA, if_pos ((c.countsA_iff delta).mpr h), if_pos hle]

theorem Cia.advanceA_count {c : Cia} {delta : Nat} (h : c.CountsA delta) (hlt : delta < c.ta.toNat) :
    c.advanceA delta = ({ c with ta := c.ta - BitVec.ofNat 16 delta }, false) := by
  rw [Cia.advanceA, if_pos ((c.countsA_iff delta).mpr h), if_neg (by omega)]

/-- A counter above the count goes down by it, without wrapping round. -/
theorem toNat_sub_ofNat_of_lt {w k : Nat} {t : BitVec w} (h : k < t.toNat) : (t - BitVec.ofNat w k).toNat = t.toNat - k := by
  have hk : (BitVec.ofNat w k).toNat = k := (BitVec.toNat_ofNat k w).trans (Nat.mod_eq_of_lt (h.trans t.isLt))
  rw [BitVec.toNat_sub_of_le (by rw [BitVec.le_def, hk]; exact h.le), hk]

/-- Settles O45: the three clauses are timer A's idle, underflow and count, and the example is an underflow. -/
theorem timerACountsDownAtChecks : Obligations.TimerACountsDownAtChecks := by
  refine ⟨fun c delta => ⟨Cia.advanceA_idle, fun hcounts hn => ?_, fun hcounts hn => ?_⟩, fun c hta hla hcra => ?_⟩
  · rw [Cia.advanceA_underflow hcounts (by omega)]
    exact ⟨rfl, rfl, rfl, fun h => ⟨if_neg (Bool.eq_false_iff.mp h), if_neg (Bool.eq_false_iff.mp h)⟩,
      fun h => ⟨if_pos h, if_pos h⟩, rfl⟩
  · have hlt : delta < c.ta.toNat := by omega
    rw [Cia.advanceA_count hcounts hlt]
    refine ⟨rfl, ?_, rfl⟩
    rw [toNat_sub_ofNat_of_lt hlt]
    omega
  · have hcounts : c.CountsA 100 := by simp [Cia.CountsA, Cia.startA, Cia.cntA, hcra]
    have hle : c.ta.toNat ≤ 100 := by simp [hta]
    rw [Cia.advanceA_underflow hcounts hle]
    simp [Cia.oneShotA, hla, hcra]

/-! The serial countdown and timer B at a check. -/

theorem Cia.advanceSerial_eq (c : Cia) (u : Bool) :
    c.advanceSerial u =
      if c.serialOut = true ∧ u = true ∧ c.shiftCount ≠ 0 then
        { c with
          shiftCount := c.shiftCount - 1
          icrLatch := if c.shiftCount = 1 then c.icrLatch ||| 8#5 else c.icrLatch }
      else c := by
  have hstep : (c.serialOut && u && decide (0 < c.shiftCount.toNat)) = true ↔
      c.serialOut = true ∧ u = true ∧ c.shiftCount ≠ 0 := by
    simp [Nat.pos_iff_ne_zero, ← BitVec.toNat_inj, and_assoc]
  exact if_congr hstep rfl rfl

/-- What timer B counts, by bits 6 and 5 of CRB as a number (R541). -/
theorem Cia.countB_eq (c : Cia) (u : Bool) (delta : Nat) :
    c.countB u delta = if c.crb.toNat / 32 % 4 = 0 then delta else if c.crb.toNat / 32 % 4 = 1 then 0 else u.toNat := by
  have hmode : c.inmodeB.toNat = c.crb.toNat / 32 % 4 := by
    simp [Cia.inmodeB, BitVec.extractLsb'_toNat, Nat.shiftRight_eq_div_pow]
  rw [← hmode, Cia.countB]
  split
  next h => rw [h, if_pos rfl]
  next h => rw [h, if_neg (by decide), if_pos rfl]
  next h0 h1 =>
    rw [if_neg h0, if_neg h1]
    cases u <;> rfl

theorem Cia.advanceB_idle {c : Cia} {u : Bool} {delta : Nat} (h : ¬(c.startB = true ∧ 0 < c.countB u delta)) :
    c.advanceB u delta = c := by
  simp only [Cia.advanceB, Bool.and_eq_true, decide_eq_true_eq, if_neg h]

/-- Timer B at or below zero underflows once; what is left over is dropped (R541). -/
theorem Cia.advanceB_underflow {c : Cia} {u : Bool} {delta : Nat} (h : c.startB = true ∧ 0 < c.countB u delta)
    (hle : c.tb.toNat ≤ c.countB u delta) :
    c.advanceB u delta =
      { c with
        icrLatch := c.icrLatch ||| 2#5
        pb7 := !c.pb7
        tb := if c.oneShotB then 0 else c.lb
        crb := if c.oneShotB then c.crb &&& 0xFE#8 else c.crb } := by
  simp only [Cia.advanceB, Bool.and_eq_true, decide_eq_true_eq, if_pos h, if_pos hle]

theorem Cia.advanceB_count {c : Cia} {u : Bool} {delta : Nat} (h : c.startB = true ∧ 0 < c.countB u delta)
    (hlt : c.countB u delta < c.tb.toNat) :
    c.advanceB u delta = { c with tb := c.tb - BitVec.ofNat 16 (c.countB u delta) } := by
  simp only [Cia.advanceB, Bool.and_eq_true, decide_eq_true_eq, if_pos h, if_neg (Nat.not_le.mpr hlt)]

/-! The time of day, which a check leaves alone. -/

/-- The clock's three times: the running one, the alarm and the snapshot (R55). -/
def Cia.times (c : Cia) : Tod × Tod × Tod := (c.tod, c.alarm, c.todSnap)

theorem Cia.advanceA_times (c : Cia) (delta : Nat) : (c.advanceA delta).1.times = c.times := by
  unfold Cia.advanceA
  split_ifs <;> rfl

theorem Cia.advanceSerial_times (c : Cia) (u : Bool) : (c.advanceSerial u).times = c.times := by
  unfold Cia.advanceSerial
  split_ifs <;> rfl

theorem Cia.advanceB_times (c : Cia) (u : Bool) (delta : Nat) : (c.advanceB u delta).times = c.times := by
  unfold Cia.advanceB
  dsimp only
  split_ifs <;> rfl

/-- A check does not touch the time of day (R544): none of its three parts does, and the composite is no part of it. -/
theorem Cia.advance_times (c : Cia) (delta : Nat) : (c.advance delta).times = c.times :=
  calc (c.advance delta).times
    _ = (((c.advanceA delta).1.advanceSerial (c.advanceA delta).2).advanceB (c.advanceA delta).2 delta).times := rfl
    _ = c.times := by rw [Cia.advanceB_times, Cia.advanceSerial_times, Cia.advanceA_times]

/-- Settles O46: the serial countdown's equation, timer B's idle, underflow and count, the definition of a check, and what a
check leaves of the time of day. -/
theorem timerBAndSerialCountdown : Obligations.TimerBAndSerialCountdown := by
  intro c delta
  refine ⟨fun u => ?_, fun u => ?_, rfl, ?_⟩
  · rw [Cia.advanceSerial_eq]
    exact ⟨fun h => if_pos h, fun h => if_neg h⟩
  · intro w mode k
    have hk : c.countB u delta = k := c.countB_eq u delta
    clear_value k
    subst hk
    refine ⟨Cia.advanceB_idle, fun hstart hpos hn => ?_, fun hstart hpos hn => ?_⟩
    · have hw : w = _ := Cia.advanceB_underflow ⟨hstart, hpos⟩ (by omega)
      rw [hw]
      exact ⟨rfl, rfl, fun h => ⟨if_neg (Bool.eq_false_iff.mp h), if_neg (Bool.eq_false_iff.mp h)⟩,
        fun h => ⟨if_pos h, if_pos h⟩, rfl⟩
    · have hlt : c.countB u delta < c.tb.toNat := by omega
      have hw : w = _ := Cia.advanceB_count ⟨hstart, hpos⟩ hlt
      rw [hw]
      refine ⟨?_, rfl⟩
      rw [toNat_sub_ofNat_of_lt hlt]
      omega
  · have h := c.advance_times delta
    simp only [Cia.times, Prod.mk.injEq] at h
    exact h

/-! The clock's registers. -/

/-- A read of the hours takes a snapshot unless one is held, and answers from it (R553). -/
theorem Cia.readHours_eq (c : Cia) :
    c.readHours =
      ((if c.todFrozen then c.todSnap else c.tod).hr,
        { c with todSnap := if c.todFrozen then c.todSnap else c.tod, todFrozen := true }) := by
  cases c
  unfold Cia.readHours
  split_ifs with h
  · subst h
    rfl
  · rfl

/-- A write of a clock register sets one field, masked to its bits; of the four, the tenths start the clock and the hours stop
it (R526). -/
theorem Cia.write_clock (c : Cia) (v : Byte) :
    c.write 0x8#4 v = c.writeTod (fun t => { t with t10 := v &&& 0x0F#8 }) true ∧
    c.write 0x9#4 v = c.writeTod (fun t => { t with sec := v &&& 0x7F#8 }) c.todRunning ∧
    c.write 0xA#4 v = c.writeTod (fun t => { t with min := v &&& 0x7F#8 }) c.todRunning ∧
    c.write 0xB#4 v = c.writeTod (fun t => { t with hr := v &&& 0x9F#8 }) false :=
  ⟨rfl, rfl, rfl, rfl⟩

/-- While the alarm is selected, a write of a clock register goes to it (R526). -/
theorem Cia.writeTod_alarm {c : Cia} (h : c.alarmWrites = true) (set : Tod → Tod) (run : Bool) :
    c.writeTod set run = { c with alarm := set c.alarm } := by
  rw [Cia.writeTod, if_pos h]

/-- While the alarm is not selected, a write of a clock register goes to the clock (R526). -/
theorem Cia.writeTod_clock {c : Cia} (h : c.alarmWrites = false) (set : Tod → Tod) (run : Bool) :
    c.writeTod set run = { c with tod := set c.tod, todRunning := run } := by
  rw [Cia.writeTod, if_neg (Bool.eq_false_iff.mp h)]

/-- Settles O48: the reads, by whether a snapshot is held; each write is a `writeTod` of one masked field. -/
theorem clockReadsFreezeAndWritesStartOrStop : Obligations.ClockReadsFreezeAndWritesStartOrStop := by
  refine ⟨fun id s => ?_, fun c v => ?_⟩
  · intro c shown
    have hours : ciaRead id 0xB#4 s = (c.readHours.1, s.setCia id c.readHours.2) := rfl
    rw [hours, c.readHours_eq]
    exact ⟨rfl, rfl, congrArg (·, s) (apply_ite Tod.min _ _ _).symm, congrArg (·, s) (apply_ite Tod.sec _ _ _).symm,
      (apply_ite Tod.t10 _ _ _).symm, rfl⟩
  · obtain ⟨tenths, seconds, minutes, hours⟩ := c.write_clock v
    rw [tenths, seconds, minutes, hours]
    refine ⟨fun h => ?_, fun h => ?_⟩
    · exact ⟨Cia.writeTod_alarm h _ _, Cia.writeTod_alarm h _ _, Cia.writeTod_alarm h _ _, Cia.writeTod_alarm h _ _⟩
    · exact ⟨Cia.writeTod_clock h _ _, Cia.writeTod_clock h _ _, Cia.writeTod_clock h _ _, Cia.writeTod_clock h _ _⟩

end Sys2Proof.Machine
end

section
/-! SUPPORT. The statement about the writes of the video chip's registers (62_video_chip R611, R620 to R623), settled from the chip's
window on the bus and one equation of `Vic.write` per kind of register. -/

namespace Sys2Proof.Machine

/-! The window of the chip on the bus. -/

/-- The mirrors of register `i` in the chip's window lie 64 bytes apart, and the low six bits of each are `i` (R113). -/
theorem vicMirror {m : Nat} (hm : m < 16) (i : BitVec 6) :
    (BitVec.ofNat 16 (0xD000 + 64 * m + i.toNat)).toNat ≤ 0xD3FF ∧
      (BitVec.ofNat 16 (0xD000 + 64 * m + i.toNat)).extractLsb' 0 6 = i := by
  have ha : (BitVec.ofNat 16 (0xD000 + 64 * m + i.toNat)).toNat = 0xD000 + 64 * m + i.toNat := by
    rw [BitVec.toNat_ofNat]
    omega
  refine ⟨by omega, BitVec.eq_of_toNat_eq ?_⟩
  rw [BitVec.extractLsb'_toNat, ha, Nat.shiftRight_zero]
  omega

theorem ioWrite_vic {a : Word} (h : a.toNat ≤ 0xD3FF) (v : Byte) (s : State) :
    ioWrite a v s = { s with vic := s.vic.write (a.extractLsb' 0 6) v } := by
  simp only [ioWrite]
  rw [if_pos h]

/-- A write of a mirror of a register is the register's, and leaves the rest of the machine alone (R113). -/
theorem busWrite_vicMirror {m : Nat} (hm : m < 16) (i : BitVec 6) (v : Byte) {s : State}
    (h : writeRoute s.visible (BitVec.ofNat 16 (0xD000 + 64 * m + i.toNat)) = .io) :
    busWrite (BitVec.ofNat 16 (0xD000 + 64 * m + i.toNat)) v s = { s with vic := s.vic.write i v } := by
  obtain ⟨hin, hlow⟩ := vicMirror hm i
  rw [busWrite_of_io h, ioWrite_vic hin, hlow]

/-! One equation per kind of register. -/

/-- Control 1 stores its byte and sets the high bit of the raster compare (R623). -/
theorem Vic.write_control1 {i : BitVec 6} (h : i.toNat = 0x11) (c : Vic) (v : Byte) :
    c.write i v =
      { c with regs := c.regs.write 0x11 v, compare := BitVec.ofBool (v.getLsbD 7) ++ c.compare.extractLsb' 0 8 } := by
  simp only [Vic.write, h]

/-- The raster register stores its byte and sets the low byte of the raster compare (R623). -/
theorem Vic.write_rasterCompare {i : BitVec 6} (h : i.toNat = 0x12) (c : Vic) (v : Byte) :
    c.write i v = { c with regs := c.regs.write 0x12 v, compare := BitVec.ofBool (c.compare.getLsbD 8) ++ v } := by
  simp only [Vic.write, h]

/-- The latch is acknowledged bit by bit (R621). -/
theorem Vic.write_latch {i : BitVec 6} (h : i.toNat = 0x19) (c : Vic) (v : Byte) :
    c.write i v = { c with latch := c.latch &&& ~~~(v.extractLsb' 0 4) } := by
  simp only [Vic.write, h]

/-- The enable bits are the low nibble of the byte (R622). -/
theorem Vic.write_enable {i : BitVec 6} (h : i.toNat = 0x1A) (c : Vic) (v : Byte) :
    c.write i v = { c with enable := v.extractLsb' 0 4 } := by
  simp only [Vic.write, h]

/-- The indices with no rule of their own store the byte, up to the last register (R611). -/
theorem Vic.write_default {i : BitVec 6} (h : i.toNat ∉ [0x11, 0x12, 0x13, 0x14, 0x19, 0x1A, 0x1E, 0x1F]) (c : Vic) (v : Byte) :
    c.write i v = if 0x2F ≤ i.toNat then c else { c with regs := c.regs.write i.toNat v } := by
  unfold Vic.write
  split
  case h_9 => rfl
  all_goals next hi => exact absurd h (by simp [hi])

/-- The registers that ignore a write: the light pen, the collisions, and the indices without a register (R619, R620). -/
theorem Vic.write_ignored {i : BitVec 6} (h : i.toNat ∈ [0x13, 0x14, 0x1E, 0x1F] ∨ 0x2F ≤ i.toNat) (c : Vic) (v : Byte) :
    c.write i v = c := by
  rcases h with h | h
  · simp only [List.mem_cons, List.not_mem_nil, or_false] at h
    rcases h with h | h | h | h <;> simp only [Vic.write, h]
  · have hother : i.toNat ∉ [0x11, 0x12, 0x13, 0x14, 0x19, 0x1A, 0x1E, 0x1F] := by
      simp only [List.mem_cons, List.not_mem_nil, or_false]
      omega
    exact (Vic.write_default hother c v).trans (if_pos h)

/-- A register that stores its byte and is no part of the raster compare changes nothing else (R611). -/
theorem Vic.write_plain {i : BitVec 6} (h : i.toNat ∉ [0x13, 0x14, 0x19, 0x1A, 0x1E, 0x1F]) (hi : i.toNat < 0x2F)
    (h11 : i.toNat ≠ 0x11) (h12 : i.toNat ≠ 0x12) (c : Vic) (v : Byte) :
    c.write i v = { c with regs := c.regs.write i.toNat v } :=
  (Vic.write_default (List.not_mem_cons_of_ne_of_not_mem h11 (List.not_mem_cons_of_ne_of_not_mem h12 h)) c v).trans
    (if_neg (Nat.not_le.mpr hi))

/-- A stored register takes the byte, and of the rest of the chip only the raster compare can change (R611, R623). -/
theorem Vic.write_stored {i : BitVec 6} (h : i.toNat ∉ [0x13, 0x14, 0x19, 0x1A, 0x1E, 0x1F]) (hi : i.toNat < 0x2F) (c : Vic)
    (v : Byte) : c.write i v = { c with regs := c.regs.write i.toNat v, compare := (c.write i v).compare } := by
  by_cases h11 : i.toNat = 0x11
  · rw [Vic.write_control1 h11, h11]
  by_cases h12 : i.toNat = 0x12
  · rw [Vic.write_rasterCompare h12, h12]
  rw [Vic.write_plain h hi h11 h12]

/-! The bits of the latch and the number of the raster compare. -/

/-- A bit of a nibble is cleared where the byte has a 1. -/
theorem getLsbD_acknowledge (l : BitVec 4) (v : Byte) {k : Nat} (hk : k < 4) :
    (l &&& ~~~(v.extractLsb' 0 4)).getLsbD k = (l.getLsbD k && !v.getLsbD k) := by
  simp [hk]

/-- The number of a bit over a byte. -/
theorem toNat_ofBool_append (b : Bool) (v : Byte) : (BitVec.ofBool b ++ v).toNat = v.toNat + 256 * b.toNat := by
  rw [BitVec.toNat_append, ← Nat.shiftLeft_add_eq_or_of_lt v.isLt, Nat.shiftLeft_eq, BitVec.toNat_ofBool]
  omega

/-- The top bit of a number is what is left of it above the other bits. -/
theorem toNat_getLsbD_top {w : Nat} (x : BitVec (w + 1)) : (x.getLsbD w).toNat = x.toNat / 2 ^ w := by
  have hx : x.toNat / 2 ^ w < 2 := Nat.div_lt_of_lt_mul (Nat.pow_succ 2 w ▸ x.isLt)
  rw [BitVec.getLsbD, Nat.toNat_testBit, Nat.mod_eq_of_lt hx]

theorem Vic.toNat_compare_write_control1 {i : BitVec 6} (h : i.toNat = 0x11) (c : Vic) (v : Byte) :
    (c.write i v).compare.toNat = c.compare.toNat % 256 + 256 * (v.toNat / 128) := by
  rw [Vic.write_control1 h, toNat_ofBool_append, toNat_getLsbD_top, BitVec.extractLsb'_toNat, Nat.shiftRight_zero]
  rfl

theorem Vic.toNat_compare_write_rasterCompare {i : BitVec 6} (h : i.toNat = 0x12) (c : Vic) (v : Byte) :
    (c.write i v).compare.toNat = c.compare.toNat / 256 * 256 + v.toNat := by
  rw [Vic.write_rasterCompare h, toNat_ofBool_append, toNat_getLsbD_top, Nat.add_comm, Nat.mul_comm]
  rfl

/-- Settles O38: the address is a mirror of register `i`, and each clause is the equation of one kind of register. -/
theorem videoRegisterWrites : Obligations.VideoRegisterWrites := by
  intro s m i v hm a n w h
  have hwrite : busWrite a v s = { s with vic := s.vic.write i v } := busWrite_vicMirror hm i v h
  have hw : w = s.vic.write i v := congrArg State.vic hwrite
  clear_value w
  subst hw
  refine ⟨hwrite, fun hn => ?_, fun hn => Vic.write_enable hn _ v, fun hn => Vic.toNat_compare_write_control1 hn _ v,
    fun hn => Vic.toNat_compare_write_rasterCompare hn _ v, fun hn => Vic.write_ignored hn _ v, fun hn hlt => ?_⟩
  · rw [Vic.write_latch hn]
    exact ⟨fun k hk => getLsbD_acknowledge _ v hk, rfl⟩
  · have hstored := Vic.write_stored hn hlt s.vic v
    have hregs : (s.vic.write i v).regs = s.vic.regs.write n v := congrArg Vic.regs hstored
    refine ⟨?_, fun k hk => ?_, ?_, fun h11 h12 => ?_⟩
    · rw [Vic.reg, hregs, Memory.read_write_self]
    · rw [Vic.reg, hregs, Memory.read_write_ne _ hk]
      rfl
    · rw [hregs]
      exact hstored
    · rw [Vic.write_plain hn hlt h11 h12]

end Sys2Proof.Machine
end

section
/-! SUPPORT. The statements about encoding and fetch (30_encoding R160 to R168), settled from one fact: an opcode followed by the
instruction's own operand bytes decodes to the instruction, whatever follows them. -/

namespace Sys2Proof.Machine

/-! The decoder. -/

/-- A form is as long as its opcode and its operand bytes (R161). -/
theorem length_mode (m : Mode) : m.length = m.operandBytes.length + 1 := by
  cases m <;> rfl

/-- Whatever follows its own operand bytes, an instruction's opcode decodes to it (R160 to R162). -/
theorem decodeBytes_of_operandBytes {i : Instr} (hi : i.wellFormed = true) {b1 b2 : Byte}
    (h : [b1, b2].take i.mode.operandBytes.length = i.mode.operandBytes) : decodeBytes i.opcode b1 b2 = i := by
  generalize hm : i.mode = m at h
  cases m with
  | impl =>
    cases i with
    | illegal op => exact Laws.illegal_decodes op (List.contains_iff_mem.mp hi) b1 b2
    | _ => cases hm <;> simp only [Instr.opcode] <;> rfl
  | acc => cases i <;> cases hm <;> simp only [Instr.opcode] <;> rfl
  | abs a | absx a | absy a | ind a =>
    obtain rfl : wordOf b1 b2 = a := by
      cases h
      exact Laws.wordOf_bytes a
    cases i <;> cases hm <;> simp only [Instr.opcode] <;> rfl
  | _ =>
    cases h
    cases i <;> cases hm <;> simp only [Instr.opcode] <;> rfl

/-- Settles O1: the operand bytes are what the decoder looks at after the opcode, and the form's length is theirs. -/
theorem decodeOfEncodeIsTheInstruction : Obligations.DecodeOfEncodeIsTheInstruction := by
  intro i rest hi
  have hlen : i.length = i.mode.operandBytes.length + 1 := length_mode i.mode
  have hdecode : decodeBytes i.opcode ((i.mode.operandBytes ++ rest).getD 0 0) ((i.mode.operandBytes ++ rest).getD 1 0) = i := by
    refine decodeBytes_of_operandBytes hi ?_
    cases i.mode <;> rfl
  simp only [encode, List.cons_append, decode, hdecode, hlen, List.length_append]
  rw [if_neg (by omega), Nat.add_sub_cancel, List.drop_left]

/-- The bytes after the opcode change neither the opcode nor the mnemonic (R160). -/
theorem decodeBytes_kind (op b1 b2 : Byte) :
    (decodeBytes op b1 b2).opcode = op ∧ (decodeBytes op b1 b2).mnemonic = (decodeBytes op 0 0).mnemonic := by
  suffices h : (decodeBytes op b1 b2).opcode = (decodeBytes op 0 0).opcode ∧
      (decodeBytes op b1 b2).mnemonic = (decodeBytes op 0 0).mnemonic from h.imp_left (·.trans (opcode_decodeBytes op))
  unfold decodeBytes
  dsimp only
  split
  · unfold decodeRow0; split <;> exact ⟨rfl, rfl⟩
  · unfold decodeRow1; split <;> exact ⟨rfl, rfl⟩
  · unfold decodeRow2; split <;> exact ⟨rfl, rfl⟩
  · unfold decodeRow3; split <;> exact ⟨rfl, rfl⟩
  · unfold decodeRow4; split <;> exact ⟨rfl, rfl⟩
  · unfold decodeRow5; split <;> exact ⟨rfl, rfl⟩
  · unfold decodeRow6; split <;> exact ⟨rfl, rfl⟩
  · unfold decodeRow7; split <;> exact ⟨rfl, rfl⟩
  · unfold decodeRow8; split <;> exact ⟨rfl, rfl⟩
  · unfold decodeRow9; split <;> exact ⟨rfl, rfl⟩
  · unfold decodeRowA; split <;> exact ⟨rfl, rfl⟩
  · unfold decodeRowB; split <;> exact ⟨rfl, rfl⟩
  · unfold decodeRowC; split <;> exact ⟨rfl, rfl⟩
  · unfold decodeRowD; split <;> exact ⟨rfl, rfl⟩
  · unfold decodeRowE; split <;> exact ⟨rfl, rfl⟩
  · unfold decodeRowF; split <;> exact ⟨rfl, rfl⟩

/-- The decoder reads exactly the bytes of R168 as illegal. -/
theorem mnemonic_decodeBytes_illegal_iff :
    ∀ op : Byte, (decodeBytes op 0 0).mnemonic = .illegal ↔ op ∈ illegalOpcodes := by decide

theorem wellFormed_of_mnemonic {i : Instr} (h : i.mnemonic ≠ .illegal) : i.wellFormed = true := by
  cases i with
  | illegal op => exact absurd rfl h
  | _ => rfl

/-- Settles O2: the bytes after the opcode leave opcode and mnemonic alone, which are read off the decoder's 256 rows at 0. -/
theorem opcodeByteDeterminesInstruction : Obligations.OpcodeByteDeterminesInstruction := by
  have hmnemonic (op b1 b2 : Byte) : (decodeBytes op b1 b2).mnemonic = .illegal ↔ op ∈ illegalOpcodes := by
    rw [(decodeBytes_kind op b1 b2).2, mnemonic_decodeBytes_illegal_iff]
  have hillegal (op b1 b2 : Byte) : decodeBytes op b1 b2 = .illegal op ↔ op ∈ illegalOpcodes :=
    ⟨fun h => (hmnemonic op b1 b2).mp (congrArg Instr.mnemonic h), fun h => Laws.illegal_decodes op h b1 b2⟩
  refine ⟨fun op b1 b2 => (decodeBytes_kind op b1 b2).1, hillegal, hmnemonic, fun op b1 b2 => ?_, by decide, by decide⟩
  by_cases hop : op ∈ illegalOpcodes
  · rw [(hillegal op b1 b2).mpr hop]
    exact List.contains_iff_mem.mpr hop
  · exact wellFormed_of_mnemonic fun h => hop ((hmnemonic op b1 b2).mp h)

/-- Settles O3: each word is run through the decoder. -/
theorem sampleWordsDecodeToTheirInstructions : Obligations.SampleWordsDecodeToTheirInstructions := by
  unfold Obligations.SampleWordsDecodeToTheirInstructions
  decide

/-! The fetch. -/

/-- The fetch reads the operand bytes of every instruction but BRK (R163, R302). -/
theorem operandCount_opcode {i : Instr} (hi : i.wellFormed = true) (hbrk : i.mode ≠ .brk) :
    operandCount i.opcode = i.mode.operandBytes.length := by
  have hform : (decodeBytes i.opcode 0 0).mode = formOf i.mode := by
    by_cases h : i.mnemonic = .illegal
    · cases i with
      | illegal op => exact congrArg Instr.mode (Laws.illegal_decodes op (List.contains_iff_mem.mp hi) 0 0)
      | _ => cases h
    · exact (decodeBytes_opcode_form h).2
  rw [operandCount, hform]
  cases hm : i.mode with
  | brk => exact absurd hm hbrk
  | _ => rfl

theorem eq_brk_of_mode {i : Instr} (h : i.mode = .brk) : i = .brk := by
  cases i with
  | brk => rfl
  | _ => cases h

theorem length_operandBytes_le (m : Mode) : m.operandBytes.length ≤ 2 := by
  cases m <;> simp [Mode.operandBytes]

/-- A fetch of bytes that stand outside the I/O range gives their instruction and leaves the state alone (R163). -/
theorem fetch_eq {s : State} {i : Instr} (hi : i.wellFormed = true)
    (hbytes : ∀ k, k < (encode i).length → (i = .brk → k = 0) →
      readRoute s.visible (s.pc + BitVec.ofNat 16 k) ≠ .io ∧
      (busRead (s.pc + BitVec.ofNat 16 k) s).1 = (encode i).getD k 0) :
    fetch s = (i, s) := by
  have hread (k : Nat) (hk : k < (encode i).length) (hb : i = .brk → k = 0) :
      busRead (s.pc + BitVec.ofNat 16 k) s = ((encode i).getD k 0, s) :=
    Prod.ext (hbytes k hk hb).2 (busRead_pure (hbytes k hk hb).1)
  have hop : busRead s.pc s = (i.opcode, s) := by simpa [encode] using hread 0
  by_cases hbrk : i.mode = .brk
  · cases eq_brk_of_mode hbrk
    simp only [fetch, hop, Instr.opcode]
    rfl
  · have hcount := operandCount_opcode hi hbrk
    have hdecode {b1 b2 : Byte} := decodeBytes_of_operandBytes hi (b1 := b1) (b2 := b2)
    have hread' (k : Nat) (hk : k < i.mode.operandBytes.length) :
        busRead (s.pc + BitVec.ofNat 16 (k + 1)) s = (i.mode.operandBytes.getD k 0, s) :=
      hread (k + 1) (Nat.succ_lt_succ hk) fun h => absurd (congrArg Instr.mode h) hbrk
    have hle := length_operandBytes_le i.mode
    rw [fetch, hop]
    dsimp only
    generalize i.mode.operandBytes = l at hcount hdecode hread' hle
    rw [hcount]
    match l, hle with
    | [], _ => exact congrArg (·, s) (hdecode rfl)
    | [b1], _ =>
      have h0 : busRead (s.pc + 1#16) s = (b1, s) := hread' 0 Nat.zero_lt_one
      simp only [List.length_singleton, h0, hdecode (b1 := b1) (b2 := 0) rfl]
    | [b1, b2], _ =>
      have h0 : busRead (s.pc + 1#16) s = (b1, s) := hread' 0 Nat.zero_lt_two
      have h1 : busRead (s.pc + 2#16) s = (b2, s) := hread' 1 Nat.one_lt_two
      simp only [List.length_cons, List.length_nil, h0, h1, hdecode (b1 := b1) (b2 := b2) rfl]

/-- Settles O4: at a CPU step with no interrupt due the step runs what the fetch gives, and the fetch of an instruction's bytes
gives the instruction. -/
theorem stepRunsTheDecodedInstruction : Obligations.StepRunsTheDecodedInstruction := by
  have hrun (s : State) (hs : AtCpuStep s) (hnmi : (s.nmiLine && s.nmiAck) = false) (hirq : (s.irqLine && !s.p.i) = false) :
      step s = exec (fetch s).1 (fetch s).2 := by
    rw [step_of_atCpuStep hs, cpuStep, hnmi, hirq]
    rfl
  refine ⟨hrun, fun s i hs hnmi hirq hi hbytes => ?_⟩
  rw [hrun s hs hnmi hirq, fetch_eq hi hbytes]

/-! Lengths and costs. -/

/-- Settles O5: the length by form, and the table's entry at each opcode. -/
theorem lengthsAndBaseCycles : Obligations.LengthsAndBaseCycles := by
  refine ⟨fun i => ?_, fun i s hi htable => ?_, rfl, rfl, rfl, rfl, rfl, rfl, rfl, rfl, rfl, rfl, rfl, rfl, rfl⟩
  · rw [Instr.length]
    cases i.mode <;> rfl
  · intro n rmw
    rw [State.cyclesOf, htable]
    cases i with
    | illegal op => exact absurd rfl hi
    | _ => rfl
end Sys2Proof.Machine
end

section
/-! SUPPORT. The statements about reads with an effect (20_memory R111, R123), the reads of the video chip (62_video_chip R611 to R618)
and the sound chip's window (63_sound_engine R701 to R705), settled from what an I/O read leaves of each device. -/

namespace Sys2Proof.Machine

/-! What a read leaves of each device. -/

/-- What a read of index `n` leaves of a timer controller (R531, R553): three indices have an effect. -/
def Cia.afterRead (c : Cia) (n : Nat) : Cia :=
  match n with
  | 0x8 => c.readTenths.2
  | 0xB => c.readHours.2
  | 0xD => c.readIcr.2
  | _ => c

theorem Cia.afterRead_of_notMem {n : Nat} (h : n ∉ [0x8, 0xB, 0xD]) (c : Cia) : c.afterRead n = c := by
  unfold Cia.afterRead
  split <;> first | exact absurd (by decide) h | rfl

/-- What a register read of a timer controller leaves (R123): the controller after the read, and CIA2's index 0x0D sets the NMI
latch. -/
theorem ciaRead_snd (id : CiaId) (i : BitVec 4) (s : State) :
    (ciaRead id i s).2 =
      { s.setCia id ((s.cia id).afterRead i.toNat) with
        nmiAck := s.nmiAck || decide (id = .cia2 ∧ i.toNat = 0xD), draws := (ciaRead id i s).2.draws } := by
  cases id <;> simp only [ciaRead] <;> split <;> simp_all [Cia.afterRead, portRead, State.draw, State.setCia, State.cia]

theorem vicRead_snd (i : BitVec 6) (s : State) :
    (vicRead i s).2 = { s with vic := s.vic.afterRead i.toNat, draws := (vicRead i s).2.draws } := by
  unfold vicRead
  dsimp only
  split_ifs <;> rfl

theorem toNat_lowBits {w : Nat} (x : BitVec w) (k : Nat) : (x.extractLsb' 0 k).toNat = x.toNat % 2 ^ k := by
  rw [BitVec.extractLsb'_toNat, Nat.shiftRight_zero]

/-- What an I/O read leaves of each device, by its window (R111, R123). -/
theorem ioRead_snd (a : Word) (s : State) :
    (ioRead a s).2 =
      { s with
        vic := if a.toNat ≤ 0xD3FF then s.vic.afterRead (a.toNat % 64) else s.vic
        cia1 := if 0xDC00 ≤ a.toNat ∧ a.toNat ≤ 0xDCFF then s.cia1.afterRead (a.toNat % 16) else s.cia1
        cia2 := if 0xDD00 ≤ a.toNat ∧ a.toNat ≤ 0xDDFF then s.cia2.afterRead (a.toNat % 16) else s.cia2
        nmiAck := s.nmiAck || decide (0xDD00 ≤ a.toNat ∧ a.toNat ≤ 0xDDFF ∧ a.toNat % 16 = 0xD)
        draws := (ioRead a s).2.draws } := by
  have hack (h : ¬(0xDD00 ≤ a.toNat ∧ a.toNat ≤ 0xDDFF)) :
      (s.nmiAck || decide (0xDD00 ≤ a.toNat ∧ a.toNat ≤ 0xDDFF ∧ a.toNat % 16 = 0xD)) = s.nmiAck := by
    rw [decide_eq_false fun hc => h ⟨hc.1, hc.2.1⟩, Bool.or_false]
  have hlow6 : (a.extractLsb' 0 6).toNat = a.toNat % 64 := toNat_lowBits a 6
  have hlow : (a.extractLsb' 0 4).toNat = a.toNat % 16 := toNat_lowBits a 4
  unfold ioRead
  dsimp only
  split_ifs <;> first | omega | skip
  · rw [vicRead_snd, hack (by omega), hlow6]
  · rw [sidRead_state, hack (by omega)]
  · rw [hack (by omega)]
    rfl
  · rw [ciaRead_snd, hack (by omega), hlow]
    simp [State.setCia, State.cia]
  · rw [ciaRead_snd, hlow]
    simp [State.setCia, State.cia, *]
  · rw [hack (by omega)]
    rfl

/-- Settles O36: outside the I/O range a read is pure, and in it the devices are as `ioRead_snd` gives them. -/
theorem readSideEffects : Obligations.ReadSideEffects := by
  intro a s t
  refine ⟨busRead_pure, ⟨busRead_a a s, busRead_x a s, busRead_y a s, busRead_sp a s⟩, busRead_pc a s, busRead_p a s,
    ⟨fun _ => by rw [busRead_ram], fun _ => by rw [busRead_color], busRead_bankByte a s⟩,
    ⟨busRead_halted a s, busRead_haltPC a s, busRead_haltOp a s, busRead_phase a s, busRead_inject a s, busRead_hostPlan a s,
      busRead_cfg a s⟩,
    busRead_sid a s, busRead_lineCycles a s, busRead_sinceCheck a s, fun hio => ?_⟩
  have ht : t = (ioRead a s).2 := congrArg Prod.snd (busRead_of_io hio)
  rw [ht, ioRead_snd]
  refine ⟨fun ⟨hle, hn⟩ => ?_, fun ⟨hle, hn⟩ => ?_, fun h => ?_, fun h => ?_, fun h => ?_, rfl⟩
  · simp [hle, hn, Vic.afterRead]
  · simp [hle, hn, Vic.afterRead]
  · refine ite_eq_right_iff.mpr fun hle => ?_
    unfold Vic.afterRead
    split <;> first | (exfalso; omega) | rfl
  · exact ite_eq_right_iff.mpr fun hin => Cia.afterRead_of_notMem (fun hmem => h ⟨hin.1, hin.2, hmem⟩) _
  · exact ite_eq_right_iff.mpr fun hin => Cia.afterRead_of_notMem (fun hmem => h ⟨hin.1, hin.2, hmem⟩) _

/-! The registers of the video chip. -/

theorem ioRead_vic {a : Word} (h : a.toNat ≤ 0xD3FF) (s : State) : ioRead a s = vicRead (a.extractLsb' 0 6) s := by
  simp only [ioRead]
  rw [if_pos h]

/-- A read of a mirror of a register is the register's (R111). -/
theorem busRead_vicMirror {m : Nat} (hm : m < 16) (i : BitVec 6) {s : State}
    (h : readRoute s.visible (BitVec.ofNat 16 (0xD000 + 64 * m + i.toNat)) = .io) :
    busRead (BitVec.ofNat 16 (0xD000 + 64 * m + i.toNat)) s = vicRead i s := by
  obtain ⟨hin, hlow⟩ := vicMirror hm i
  rw [busRead_of_io h, ioRead_vic hin, hlow]

theorem getLsbD_mixFree (mask stored free : Byte) (k : Nat) :
    (mixFree mask stored free).getLsbD k = if mask.getLsbD k then stored.getLsbD k else decide (k < 8) && free.getLsbD k := by
  simp only [mixFree, BitVec.getLsbD_or, BitVec.getLsbD_and, BitVec.getLsbD_not]
  cases mask.getLsbD k <;> simp [Bool.and_comm]

/-- A register that the chip gives whole takes no draw (R611). -/
theorem vicRead_whole {i : BitVec 6} (h : vicReadMask i.toNat = 0xFF#8) (s : State) :
    vicRead i s = (s.vic.readBits i.toNat, { s with vic := s.vic.afterRead i.toNat }) := by
  simp only [vicRead]
  rw [if_pos h]

/-- A read has the bits the chip gives, whatever the draw (R611, R616, R618). -/
theorem getLsbD_vicRead {i : BitVec 6} {mask : Byte} (hmask : vicReadMask i.toNat = mask) {k : Nat} (h : mask.getLsbD k = true)
    (s : State) : (vicRead i s).1.getLsbD k = (s.vic.readBits i.toNat).getLsbD k := by
  simp only [vicRead]
  split_ifs
  · rfl
  · rw [getLsbD_mixFree, hmask, if_pos h]

theorem extractLsb'_vicRead {i : BitVec 6} {mask : Byte} (hmask : vicReadMask i.toNat = mask) {start len : Nat}
    (h : ∀ k < len, mask.getLsbD (start + k) = true) (s : State) :
    (vicRead i s).1.extractLsb' start len = (s.vic.readBits i.toNat).extractLsb' start len := by
  ext k hk
  rw [BitVec.getElem_extractLsb', BitVec.getElem_extractLsb', getLsbD_vicRead hmask (h k hk)]

/-- The registers that read back as they were stored (R611). -/
theorem vicRead_stored {i : BitVec 6}
    (h : i.toNat ≤ 0x10 ∨ i.toNat = 0x15 ∨ i.toNat = 0x17 ∨ i.toNat = 0x1B ∨ i.toNat = 0x1C ∨ i.toNat = 0x1D) (s : State) :
    vicRead i s = (s.vic.reg i.toNat, s) := by
  have hmask : vicReadMask i.toNat = 0xFF#8 := by
    unfold vicReadMask
    split <;> first | (exfalso; omega) | skip
    rw [if_neg (by omega), if_neg (by omega)]
  have hbits : s.vic.readBits i.toNat = s.vic.reg i.toNat := by
    unfold Vic.readBits
    split <;> first | (exfalso; omega) | rfl
  have hafter : s.vic.afterRead i.toNat = s.vic := by
    unfold Vic.afterRead
    split <;> first | (exfalso; omega) | rfl
  rw [vicRead_whole hmask, hbits, hafter]

theorem vicReadMask_colour {n : Nat} (h : 0x20 ≤ n ∧ n ≤ 0x2E) : vicReadMask n = 0x0F#8 := by
  unfold vicReadMask
  split <;> first | (exfalso; omega) | skip
  rw [if_neg (by omega), if_pos h.1]

theorem readBits_colour {n : Nat} (h : 0x20 ≤ n ∧ n ≤ 0x2E) (v : Vic) : v.readBits n = v.reg n := by
  unfold Vic.readBits
  split <;> first | (exfalso; omega) | rfl

/-- The number of a bit joined above seven. -/
theorem toNat_ofBool_append7 (b : Bool) (v : BitVec 7) : (BitVec.ofBool b ++ v).toNat = v.toNat + 128 * b.toNat := by
  revert b v
  decide

theorem interruptByte_latch_irq (irq : Bool) (latch : BitVec 4) :
    (BitVec.ofBool irq ++ 0#3 ++ latch).extractLsb' 0 4 = latch ∧ (BitVec.ofBool irq ++ 0#3 ++ latch).getLsbD 7 = irq := by
  revert irq latch
  decide

theorem extractLsb'_enableByte (enable : BitVec 4) : (0#4 ++ enable).extractLsb' 0 4 = enable := by
  revert enable
  decide

/-- Settles O37: the address is a mirror of register `i`, and each clause is the bits the chip gives for one kind of register. -/
theorem videoRegisterReads : Obligations.VideoRegisterReads := by
  intro s m i hm a n v t hio
  have hread : busRead a s = vicRead i s := busRead_vicMirror hm i hio
  have hv : v = (vicRead i s).1 := congrArg Prod.fst hread
  have ht : t = (vicRead i s).2 := congrArg Prod.snd hread
  have hn : i.toNat = n := rfl
  clear_value v t n
  subst hv ht hn
  refine ⟨fun h => ?_, fun h => ?_, fun h => ?_, fun h => ?_, fun h => ?_, fun h => ?_, fun h => ?_, fun h => ?_, fun h => ?_,
    fun h => Prod.mk.inj (vicRead_stored h s)⟩
  · rw [vicRead_whole (by rw [h]; rfl), h]
    exact (toNat_ofBool_append7 _ _).trans (by rw [toNat_getLsbD_top, toNat_lowBits]; rfl)
  · rw [vicRead_whole (by rw [h]; rfl), h]
    exact toNat_lowBits s.vic.raster 8
  · have hmask : vicReadMask i.toNat = 0x8F#8 := by rw [h]; rfl
    rw [extractLsb'_vicRead hmask (by decide), getLsbD_vicRead hmask (by decide), h]
    exact interruptByte_latch_irq s.vic.irq s.vic.latch
  · have hmask : vicReadMask i.toNat = 0x0F#8 := by rw [h]; rfl
    rw [extractLsb'_vicRead hmask (by decide), h]
    exact extractLsb'_enableByte s.vic.enable
  · rw [vicRead_whole (by rw [h]; rfl), h]
    exact ⟨rfl, rfl⟩
  · rw [vicRead_whole (by rw [h]; rfl), h]
    exact ⟨rfl, rfl⟩
  · rw [extractLsb'_vicRead (vicReadMask_colour h) (by decide), readBits_colour h]
  · have hmask : vicReadMask i.toNat = 0x3F#8 := by rw [h]; rfl
    rw [extractLsb'_vicRead hmask (by decide), h]
    rfl
  · have hmask : vicReadMask i.toNat = 0xFE#8 := by rw [h]; rfl
    rw [extractLsb'_vicRead hmask (by decide), h]
    rfl

/-! The window of the sound chip. -/

theorem ioRead_sid {a : Word} (h : 0xD400 ≤ a.toNat ∧ a.toNat ≤ 0xD7FF) (s : State) : ioRead a s = sidRead (loByte a) s := by
  simp only [ioRead]
  rw [if_neg (by omega), if_pos h.2]

theorem ioWrite_sid {a : Word} (h : 0xD400 ≤ a.toNat ∧ a.toNat ≤ 0xD7FF) (v : Byte) (s : State) :
    ioWrite a v s = sidWrite (loByte a) v s := by
  simp only [ioWrite]
  rw [if_neg (by omega), if_pos h.2]

theorem Sid.chip_setChip (d : Sid) (j k : Fin 3) (c : SidChip) : (d.setChip j c).chip k = if k = j then c else d.chip k := by
  fin_cases j <;> fin_cases k <;> rfl

theorem Sid.setChip_sampleAcc (d : Sid) (j : Fin 3) (c : SidChip) : (d.setChip j c).sampleAcc = d.sampleAcc := by
  fin_cases j <;> rfl

theorem Sid.setChip_ring (d : Sid) (j : Fin 3) (c : SidChip) : (d.setChip j c).ring = d.ring := by
  fin_cases j <;> rfl

/-- The sound chip `k` after a write at offset `o` (R702). -/
theorem sidWrite_chip (o v : Byte) (s : State) (k : Fin 3) :
    (sidWrite o v s).sid.chip k =
      if k = (s.sidTarget o).chip then
        { s.sid.chip k with regs := (s.sid.chip k).regs.write (s.sidTarget o).reg.toNat v }
      else s.sid.chip k := by
  refine (Sid.chip_setChip _ _ _ _).trans ?_
  split_ifs with h
  · rw [h]
  · rfl

/-- Settles O49: in the window a write is `sidWrite` at the address's low byte, and a read `sidRead`. -/
theorem soundRegistersStoreAndDoNotReadBack : Obligations.SoundRegistersStoreAndDoNotReadBack := by
  intro s a v hlo hhi hio o g t
  have ht : t = sidWrite o v s := by
    rw [← ioWrite_sid ⟨hlo, hhi⟩]
    exact busWrite_of_io (writeRoute_of_readRoute_io hio)
  clear_value t
  subst ht
  refine ⟨rfl, fun k r => ?_, fun k => ?_, Sid.setChip_sampleAcc _ _ _, Sid.setChip_ring _ _ _, fun h => ?_, busRead_sid a s,
    fun h => ?_⟩
  · rw [sidWrite_chip]
    by_cases hk : k = g.chip
    · rw [if_pos hk, Memory.read_write]
      simp [hk, g]
    · rw [if_neg hk, if_neg fun hc => hk hc.1]
  · rw [sidWrite_chip]
    split_ifs <;> rfl
  · rw [busRead_of_io hio, ioRead_sid ⟨hlo, hhi⟩, sidRead, if_pos h]
  · have hg : g = sidDefaultTarget o := by simp [g, State.sidTarget, h]
    rw [hg]
    refine ⟨rfl, ?_⟩
    have ho : o.toNat = a.toNat % 256 := toNat_loByte a
    have hreg : (sidDefaultTarget o).reg.toNat = o.toNat % 32 := toNat_lowBits o 5
    omega

end Sys2Proof.Machine
end

section
/-! SUPPORT. The statements about what every step keeps (10_state R50 to R57), each a property of memory, devices or parameters that
the bus, the actions of the line loop and the host's acts keep. -/

namespace Sys2Proof.Machine

/-! What a bus access leaves of memory and of a device. -/

/-- A bus read leaves the video chip as after a read of one of its registers, most of which have no effect (R123). -/
theorem busRead_vic (a : Word) (s : State) : ∃ n, (busRead a s).2.vic = s.vic.afterRead n := by
  by_cases hio : readRoute s.visible a = .io
  · rw [busRead_of_io hio, congrArg State.vic (ioRead_snd a s)]
    dsimp only
    split_ifs
    · exact ⟨_, rfl⟩
    · exact ⟨0, rfl⟩
  · exact ⟨0, by rw [busRead_pure hio]; rfl⟩

/-- A bus read leaves a timer controller as after a read of one of its registers, most of which have no effect (R123). -/
theorem busRead_cia (id : CiaId) (a : Word) (s : State) : ∃ n, (busRead a s).2.cia id = (s.cia id).afterRead n := by
  by_cases hio : readRoute s.visible a = .io
  · rw [busRead_of_io hio, ioRead_snd]
    cases id <;> dsimp only [State.cia] <;> split_ifs <;> first | exact ⟨_, rfl⟩ | exact ⟨0, rfl⟩
  · exact ⟨0, by rw [busRead_pure hio]; rfl⟩

/-- What a bus write of `v` at `a` can make of a state, by its route (R112 to R118). -/
inductive WriteOf (a : Word) (v : Byte) (s : State) : State → Prop
  | bankByte : WriteOf a v s { s.setRam a v with bankByte := v }
  | ram : WriteOf a v s (s.setRam a v)
  | vic (i : BitVec 6) : WriteOf a v s { s with vic := s.vic.write i v }
  | sid (o : Byte) : WriteOf a v s (sidWrite o v s)
  | color (k : Nat) (hk : k < 1024) (c : Colour) : WriteOf a v s { s with color := s.color.write k c }
  | cia (id : CiaId) (i : BitVec 4) : WriteOf a v s (s.setCia id ((s.cia id).write i v))
  | unassigned : WriteOf a v s s

theorem ioWrite_writeOf (a : Word) (v : Byte) (s : State) : WriteOf a v s (ioWrite a v s) := by
  unfold ioWrite
  dsimp only
  split_ifs
  · exact .vic _
  · exact .sid _
  · exact .color _ (by omega) _
  · exact .cia .cia1 _
  · exact .cia .cia2 _
  · exact .unassigned

theorem busWrite_writeOf (a : Word) (v : Byte) (s : State) : WriteOf a v s (busWrite a v s) := by
  unfold busWrite
  split
  · exact .bankByte
  · exact ioWrite_writeOf a v s
  · exact .ram

/-! What drawing a line and a tick of a clock leave alone. -/

@[simp] theorem drawRasterline_ram (s : State) : (drawRasterline s).ram = s.ram := by
  rw [drawRasterline_state]

@[simp] theorem drawRasterline_color (s : State) : (drawRasterline s).color = s.color := by
  rw [drawRasterline_state]

@[simp] theorem drawRasterline_cia1 (s : State) : (drawRasterline s).cia1 = s.cia1 := by
  rw [drawRasterline_state]

@[simp] theorem drawRasterline_cia2 (s : State) : (drawRasterline s).cia2 = s.cia2 := by
  rw [drawRasterline_state]

@[simp] theorem drawRasterline_sid (s : State) : (drawRasterline s).sid = s.sid := by
  rw [drawRasterline_state]

@[simp] theorem drawRasterline_cfg (s : State) : (drawRasterline s).cfg = s.cfg := by
  rw [drawRasterline_state]

@[simp] theorem todTick_ram (id : CiaId) (s : State) : (todTick id s).ram = s.ram := by
  rw [todTick_state]

@[simp] theorem todTick_color (id : CiaId) (s : State) : (todTick id s).color = s.color := by
  rw [todTick_state]

@[simp] theorem todTick_vic (id : CiaId) (s : State) : (todTick id s).vic = s.vic := by
  rw [todTick_state]

@[simp] theorem todTick_sid (id : CiaId) (s : State) : (todTick id s).sid = s.sid := by
  rw [todTick_state]

@[simp] theorem todTick_cfg (id : CiaId) (s : State) : (todTick id s).cfg = s.cfg := by
  rw [todTick_state]

/-! Memory and the register arrays. -/

/-- A memory in canonical form, its indexes within its size (R50, R53, R54, R56). -/
def Memory.Canonical {w : Nat} (size : Nat) (m : Memory w) : Prop := m.wf ∧ m.within size

theorem Memory.canonical_nil {w size : Nat} : Memory.Canonical size ([] : Memory w) :=
  ⟨⟨List.Pairwise.nil, fun _ h => absurd h List.not_mem_nil⟩, fun _ h => absurd h List.not_mem_nil⟩

theorem Memory.Canonical.write {w size : Nat} {m : Memory w} (h : m.Canonical size) {a : Nat} (ha : a < size) (v : BitVec w) :
    (m.write a v).Canonical size :=
  ⟨Memory.wf_write h.1 a v, Memory.within_write h.2 ha v⟩

theorem Vic.write_regs_canonical {c : Vic} (h : c.regs.Canonical 64) (i : BitVec 6) (v : Byte) : (c.write i v).regs.Canonical 64 :=
  ⟨Vic.write_regs_wf h.1 i v, Vic.write_regs_within h.2 i v⟩

theorem memoryInv_iff (s : State) :
    MemoryInv s ↔ s.ram.Canonical 0x10000 ∧ s.color.Canonical 1024 ∧ s.vic.regs.Canonical 64 ∧
      ∀ k, (s.sid.chip k).regs.Canonical 32 := by
  constructor
  · rintro ⟨a, b, c, d, e, f, g, h, i, j, k, l⟩
    refine ⟨⟨a, b⟩, ⟨c, d⟩, ⟨e, f⟩, fun n => ?_⟩
    fin_cases n
    · exact ⟨g, h⟩
    · exact ⟨i, j⟩
    · exact ⟨k, l⟩
  · rintro ⟨⟨a, b⟩, ⟨c, d⟩, ⟨e, f⟩, h⟩
    exact ⟨a, b, c, d, e, f, (h 0).1, (h 0).2, (h 1).1, (h 1).2, (h 2).1, (h 2).2⟩

/-- Memory is canonical in a state whose memory and register arrays are another's, in which it is. -/
theorem MemoryInv.of_same {s t : State} (h : MemoryInv s) (hram : t.ram = s.ram) (hcolor : t.color = s.color)
    (hvic : t.vic.regs = s.vic.regs) (hsid : ∀ k, (t.sid.chip k).regs = (s.sid.chip k).regs) : MemoryInv t := by
  simp only [memoryInv_iff, hram, hcolor, hvic, hsid] at h ⊢
  exact h

theorem MemoryInv.busWrite {s : State} (h : MemoryInv s) (a : Word) (v : Byte) : MemoryInv (busWrite a v s) := by
  obtain ⟨hram, hcolor, hvic, hsid⟩ := (memoryInv_iff s).mp h
  have hw := busWrite_writeOf a v s
  generalize Machine.busWrite a v s = t at hw ⊢
  rw [memoryInv_iff]
  cases hw with
  | bankByte => exact ⟨hram.write a.isLt v, hcolor, hvic, hsid⟩
  | ram => exact ⟨hram.write a.isLt v, hcolor, hvic, hsid⟩
  | vic i => exact ⟨hram, hcolor, Vic.write_regs_canonical hvic i v, hsid⟩
  | sid o =>
    refine ⟨hram, hcolor, hvic, fun k => ?_⟩
    rw [sidWrite_chip]
    split_ifs
    · exact (hsid k).write (s.sidTarget o).reg.isLt v
    · exact hsid k
  | color k hk c => exact ⟨hram, hcolor.write hk c, hvic, hsid⟩
  | cia id i =>
    simp only [State.setCia_ram, State.setCia_color, State.setCia_vic, State.setCia_sid]
    exact ⟨hram, hcolor, hvic, hsid⟩
  | unassigned => exact ⟨hram, hcolor, hvic, hsid⟩

theorem soundLine_regs (s : State) (k : Fin 3) : ((soundLine s).sid.chip k).regs = (s.sid.chip k).regs := by
  obtain ⟨h0, h1, h2⟩ := Sid.run_regs s.cfg.cpuHz s.cfg.lineCycles s.sid
  fin_cases k <;> assumption

theorem memoryInv_kept : StepKept MemoryInv where
  cpu := fun h hs => hs.of_same h.ram h.color (by rw [h.vic]) fun _ => by rw [h.sid]
  read := fun {s} a hs => by
    obtain ⟨n, hn⟩ := busRead_vic a s
    exact hs.of_same (busRead_ram a s) (busRead_color a s) (by rw [hn, Vic.afterRead_regs]) fun _ => by rw [busRead_sid]
  write := fun a v hs => hs.busWrite a v
  line := fun hs => hs.of_same rfl rfl rfl fun _ => rfl
  check := fun hs => hs.of_same rfl rfl rfl fun _ => rfl
  drawn := fun {s} hs => by
    exact hs.of_same (drawRasterline_ram s) (drawRasterline_color s) (drawRasterline_regs s) fun _ => by rw [drawRasterline_sid]
  sound := fun {s} hs => hs.of_same rfl rfl rfl (soundLine_regs s)
  ram := fun {s} a v hs => by
    obtain ⟨hram, hcolor, hvic, hsid⟩ := (memoryInv_iff s).mp hs
    exact (memoryInv_iff _).mpr ⟨hram.write a.isLt v, hcolor, hvic, hsid⟩
  tick := fun {s} id hs => by
    exact hs.of_same (todTick_ram id s) (todTick_color id s) (by rw [todTick_vic]) fun _ => by rw [todTick_sid]
  reset := fun {s t} hram _ hcolor hvic _ _ hsid _ hs => by
    obtain ⟨hr, hc, -, -⟩ := (memoryInv_iff s).mp hs
    rw [memoryInv_iff, hram, hcolor, hvic, hsid]
    refine ⟨hr, hc, Memory.canonical_nil, fun k => ?_⟩
    fin_cases k <;> exact Memory.canonical_nil

/-- Settles O57: every action of a step keeps memory canonical. -/
theorem everyStepKeepsMemoryCanonical : Obligations.EveryStepKeepsMemoryCanonical :=
  fun _ _ hs hstep => memoryInv_kept.step hstep hs

/-! The devices. -/

theorem CiaInv.afterRead {c : Cia} (h : CiaInv c) (n : Nat) : CiaInv (c.afterRead n) := by
  unfold Cia.afterRead
  split
  · exact h.readTenths
  · exact h.readHours
  · exact h.readIcr
  · exact h

theorem VicInv.busWrite {s : State} (h : VicInv s.vic) (a : Word) (v : Byte) : VicInv (busWrite a v s).vic := by
  have hw := busWrite_writeOf a v s
  generalize Machine.busWrite a v s = t at hw ⊢
  cases hw with
  | vic i => exact h.write i v
  | cia id i => rwa [State.setCia_vic]
  | _ => exact h

theorem SidInv.busWrite {s : State} (h : SidInv s.sid) (a : Word) (v : Byte) : SidInv (busWrite a v s).sid := by
  have hw := busWrite_writeOf a v s
  generalize Machine.busWrite a v s = t at hw ⊢
  cases hw with
  | sid o => exact sidWrite_inv h o v
  | cia id i => rwa [State.setCia_sid]
  | _ => exact h

/-- Both timer controllers meet their invariant. -/
def CiasInv (s : State) : Prop := CiaInv s.cia1 ∧ CiaInv s.cia2

theorem CiasInv.busWrite {s : State} (h : CiasInv s) (a : Word) (v : Byte) : CiasInv (busWrite a v s) := by
  have hw := busWrite_writeOf a v s
  generalize Machine.busWrite a v s = t at hw ⊢
  cases hw with
  | cia id i =>
    cases id
    · exact ⟨h.1.write i v, h.2⟩
    · exact ⟨h.1, h.2.write i v⟩
  | _ => exact h

/-! The invariants right after reset. -/

theorem vicInv_reset : VicInv Vic.reset where
  raster := by decide
  lightPen := rfl
  compareHigh := rfl
  compareLow := rfl
  frameRows := fun _ h => absurd h List.not_mem_nil
  borderEntries := fun _ h => absurd h List.not_mem_nil

theorem ciaInv_reset : CiaInv Cia.reset :=
  ⟨rfl, rfl, rfl, rfl, ⟨rfl, rfl, rfl, rfl⟩, ⟨rfl, rfl, rfl, rfl⟩, ⟨rfl, rfl, rfl, rfl⟩⟩

theorem sidInv_reset : SidInv Sid.reset :=
  have voice : VoiceInv Voice.reset := ⟨fun _ => rfl, by decide⟩
  have chip : ChipInv SidChip.reset := ⟨voice, voice, voice⟩
  ⟨chip, chip, chip, lt_max_of_lt_left Nat.one_pos⟩

theorem memoryInv_reset : MemoryInv State.reset := by
  refine (memoryInv_iff _).mpr ⟨Memory.canonical_nil, Memory.canonical_nil, Memory.canonical_nil, fun k => ?_⟩
  fin_cases k <;> exact Memory.canonical_nil

/-- Settles O59: memory is empty, and each device is as its own reset leaves it. -/
theorem invariantsHoldAtReset : Obligations.InvariantsHoldAtReset :=
  ⟨memoryInv_reset, vicInv_reset, ciaInv_reset, ciaInv_reset, sidInv_reset⟩

/-! Every step. -/

theorem vicInv_kept : StepKept fun s => VicInv s.vic where
  cpu := fun h hs => h.vic ▸ hs
  read := fun {s} a hs => by
    obtain ⟨n, hn⟩ := busRead_vic a s
    rw [hn]
    exact hs.afterRead n
  write := fun a v hs => VicInv.busWrite hs a v
  line := fun hs => hs.nextLine
  check := fun hs => hs
  drawn := fun hs => vicInv_drawRasterline hs
  sound := fun hs => hs
  ram := fun _ _ hs => hs
  tick := fun {s} id hs => by rwa [todTick_vic]
  reset := fun _ _ _ hvic _ _ _ _ _ => hvic ▸ vicInv_reset

theorem ciasInv_kept : StepKept CiasInv where
  cpu := fun h hs => ⟨h.cia1 ▸ hs.1, h.cia2 ▸ hs.2⟩
  read := fun {s} a hs => by
    obtain ⟨m, hm⟩ := busRead_cia .cia1 a s
    obtain ⟨n, hn⟩ := busRead_cia .cia2 a s
    exact ⟨(congrArg CiaInv hm).mpr (hs.1.afterRead m), (congrArg CiaInv hn).mpr (hs.2.afterRead n)⟩
  write := fun a v hs => hs.busWrite a v
  line := fun hs => hs
  check := fun {s} hs => ⟨hs.1.advance s.sinceCheck, hs.2.advance s.sinceCheck⟩
  drawn := fun {s} hs => by rwa [CiasInv, drawRasterline_cia1, drawRasterline_cia2]
  sound := fun hs => hs
  ram := fun _ _ hs => hs
  tick := fun id hs => todTick_cia hs.1 hs.2 id
  reset := fun _ _ _ _ h1 h2 _ _ _ => ⟨h1 ▸ ciaInv_reset, h2 ▸ ciaInv_reset⟩

theorem sidInv_kept : StepKept fun s => SidInv s.sid where
  cpu := fun h hs => h.sid ▸ hs
  read := fun {s} a hs => by rwa [busRead_sid]
  write := fun a v hs => SidInv.busWrite hs a v
  line := fun hs => hs
  check := fun hs => hs
  drawn := fun {s} hs => by rwa [drawRasterline_sid]
  sound := fun {s} hs => hs.run s.cfg.cpuHz s.cfg.lineCycles
  ram := fun _ _ hs => hs
  tick := fun {s} id hs => by rwa [todTick_sid]
  reset := fun _ _ _ _ _ _ hsid _ _ => hsid ▸ sidInv_reset

/-- Settles O58: every action of a step keeps each device's invariant. -/
theorem everyStepKeepsDeviceInvariants : Obligations.EveryStepKeepsDeviceInvariants :=
  ⟨fun _ _ hs hstep => vicInv_kept.step hstep hs, fun _ _ h1 h2 hstep => ciasInv_kept.step hstep ⟨h1, h2⟩,
    fun _ _ hs hstep => sidInv_kept.step hstep hs⟩

theorem cfg_kept (c : Params) : StepKept fun s => s.cfg = c where
  cpu := fun h hs => h.cfg.trans hs
  read := fun a hs => (busRead_cfg a _).trans hs
  write := fun a v hs => (busWrite_cfg a v _).trans hs
  line := fun hs => hs
  check := fun hs => hs
  drawn := fun {s} hs => (drawRasterline_cfg s).trans hs
  sound := fun hs => hs
  ram := fun _ _ hs => hs
  tick := fun {s} id hs => (todTick_cfg id s).trans hs
  reset := fun _ _ _ _ _ _ _ hcfg hs => hcfg.trans hs

/-- A core that is not halted has a next state (R400, R410). -/
theorem step_of_running {s : State} (h : s.halted = false) : ∃ t, step s = .next t := by
  have next {u : State} {r : Result} (hr : NextHas (fun v => v.cfg = u.cfg) r) : ∃ t, r = .next t := hr.imp fun _ => And.left
  rw [step, machineStep, h, if_neg Bool.false_ne_true]
  cases s.inject with
  | some saved => exact next ((cfg_kept s.cfg).injectedStep saved rfl)
  | none =>
    dsimp only
    unfold boundaryStep
    split
    · exact next ((cfg_kept s.cfg).coreStep rfl)
    · exact next ((cfg_kept s.cfg).coreStep rfl)
    · exact ⟨_, rfl⟩

/-- A halted core takes the host's reset or faults (R410, R411). -/
theorem step_of_halted {s : State} (h : s.halted = true) :
    (∃ t, step s = .next t) ∨ step s = .fault (.illegalOpcode s.haltOp s.haltPC) := by
  rw [step, machineStep, h, if_pos rfl]
  unfold haltedStep
  split
  · split_ifs
    · exact .inl ⟨_, rfl⟩
    · exact .inr rfl
  · exact .inr rfl

/-- Settles O60: no action writes `cfg`, a core that is not halted has a next state, and a halted one has one or faults. -/
theorem noStepWritesAParameter : Obligations.NoStepWritesAParameter := by
  refine fun s => ⟨fun t hstep => (cfg_kept s.cfg).step hstep rfl, ?_⟩
  cases hh : s.halted with
  | false =>
    obtain ⟨t, ht⟩ := step_of_running hh
    rw [ht]
    exact ⟨fun _ => nofun, fun _ => nofun⟩
  | true =>
    obtain ⟨t, ht⟩ | ht := step_of_halted hh
    · rw [ht]
      exact ⟨fun _ => nofun, fun _ => nofun⟩
    · rw [ht]
      exact ⟨fun _ => nofun, fun _ _ => rfl⟩

end Sys2Proof.Machine
end

section
/-! SUPPORT. The statements about the stores (41_load_store R203 to R205) and the read-modify-write instructions (44_logic_shift R274
to R278, 43_arithmetic R249, R250), settled from the shape of each and the frame of the writes it makes. -/

namespace Sys2Proof.Machine

/-! The stores. -/

/-- The register a store writes (R203 to R205). -/
def storedRegister (n : Mnemonic) (s : State) : Byte := if n = .sta then s.a else if n = .stx then s.x else s.y

theorem exec_store {i : Instr} (hi : i.mnemonic ∈ [Mnemonic.sta, .stx, .sty]) (s : State) :
    exec i s = storeInstr i.opcode i.mode (storedRegister i.mnemonic) s := by
  simp only [List.mem_cons, List.not_mem_nil, or_false] at hi
  rcases hi with h | h | h
  · rw [exec_sta h, h]
    rfl
  · rw [exec_stx h, h]
    rfl
  · rw [exec_sty h, h]
    rfl

/-- Settles O8: a store has the shape of a storing instruction; outside the I/O range its byte lies in RAM, and at 0x0001 in the
bank byte. -/
theorem storesWriteOnceAndReadNothing : Obligations.StoresWriteOnceAndReadNothing := by
  refine ⟨hasForms_of_decoder (by decide) (by decide), hasForms_of_decoder (by decide) (by decide),
    hasForms_of_decoder (by decide) (by decide), fun i s hi => ?_⟩
  obtain ⟨t, ht, hpc, hp, hreg, hran, hmem, hdev, hframe⟩ := storeInstr_shape i.opcode i.mode (storedRegister i.mnemonic) s
  refine ⟨t, (exec_store hi s).trans ht, hpc, hp, hreg, hran, hmem, hdev, hframe, fun hroute => ?_, fun hea => ?_⟩
  · exact (hmem.ram _).trans (busWrite_ram_self hroute)
  · rw [hmem.bank, hea, busWrite_one]
    rfl

/-! Read, modify, write. -/

/-- The result of a read-modify-write of a byte as a number, modulo 256 (R274 to R277, R249, R250). -/
def modifiedNumber (n : Mnemonic) (v : Byte) (carry : Bool) : Nat :=
  if n = .asl then 2 * v.toNat
  else if n = .lsr then v.toNat / 2
  else if n = .rol then 2 * v.toNat + carry.toNat
  else if n = .ror then v.toNat / 2 + 128 * carry.toNat
  else if n = .inc then v.toNat + 1
  else v.toNat + 255

/-- The carry a read-modify-write leaves: the bit shifted out, and INC and DEC leave it (R274 to R277, R249, R250). -/
def modifiedCarry (n : Mnemonic) (v : Byte) (carry : Bool) : Bool :=
  if n = .asl ∨ n = .rol then v.getLsbD 7 else if n = .lsr ∨ n = .ror then v.getLsbD 0 else carry

/-- What a read-modify-write makes of a byte and a status (R274 to R278, R249, R250). -/
def modified (n : Mnemonic) (v : Byte) (p : Status) : Byte × Status :=
  let r := BitVec.ofNat 8 (modifiedNumber n v p.c)
  (r, nzOf { p with c := modifiedCarry n v p.c } r)

/-- A result whose number is the one said, with C the carry said and N and Z from it, is what `modified` says. -/
theorem eq_modified_of_toNat {n : Mnemonic} {f : Byte → Status → Byte × Status}
    (hp : ∀ v p, (f v p).2 = Status.withNZ { p with c := modifiedCarry n v p.c } (f v p).1)
    (hr : ∀ v p, (f v p).1.toNat = modifiedNumber n v p.c % 256) : f = modified n := by
  funext v p
  have h : (f v p).1 = BitVec.ofNat 8 (modifiedNumber n v p.c) := by
    apply BitVec.eq_of_toNat_eq
    rw [hr, BitVec.toNat_ofNat]
  rw [← Prod.mk.eta (p := f v p), hp, h, Status.withNZ_eq_nzOf, modified]

theorem aslOut_eq_modified : aslOut = modified .asl :=
  eq_modified_of_toNat (n := .asl) (fun _ _ => rfl) toNat_aslOut

theorem lsrOut_eq_modified : lsrOut = modified .lsr :=
  eq_modified_of_toNat (n := .lsr) (fun _ _ => rfl) (fun v p => (toNat_lsrOut v p).trans (Nat.mod_eq_of_lt (by have := v.isLt; omega)).symm)

theorem rolOut_eq_modified : rolOut = modified .rol :=
  eq_modified_of_toNat (n := .rol) (fun _ _ => rfl) toNat_rolOut

theorem rorOut_eq_modified : rorOut = modified .ror :=
  eq_modified_of_toNat (n := .ror) (fun _ _ => rfl) (fun v p => (toNat_rorOut v p).trans
    (Nat.mod_eq_of_lt (by have := v.isLt; have := Bool.toNat_le p.c; omega)).symm)

theorem incOut_eq_modified : incOut = modified .inc :=
  eq_modified_of_toNat (n := .inc) (fun _ _ => rfl) (fun v _ => BitVec.toNat_add v 1#8)

theorem decOut_eq_modified : decOut = modified .dec :=
  eq_modified_of_toNat (n := .dec) (fun _ _ => rfl) (fun v _ => toNat_byte_sub_one v)

/-- Each of the six is a read-modify-write that does what `modified` says. -/
theorem exec_modify {i : Instr} (hi : i.mnemonic ∈ [Mnemonic.asl, .lsr, .rol, .ror, .inc, .dec]) (s : State) :
    exec i s = modifyInstr i.opcode i.mode (modified i.mnemonic) s := by
  simp only [List.mem_cons, List.not_mem_nil, or_false] at hi
  rcases hi with h | h | h | h | h | h
  · rw [exec_asl h, h, aslInstr, aslOut_eq_modified]
  · rw [exec_lsr h, h, lsrInstr, lsrOut_eq_modified]
  · rw [exec_rol h, h, rolInstr, rolOut_eq_modified]
  · rw [exec_ror h, h, rorInstr, rorOut_eq_modified]
  · rw [exec_inc h, h, incInstr, incOut_eq_modified]
  · rw [exec_dec h, h, decInstr, decOut_eq_modified]

theorem WrittenAt.trans {ea : Word} {s t u : State} (h : WrittenAt ea s t) (h' : WrittenAt ea t u) : WrittenAt ea s u where
  ram a ha := (h'.ram a ha).trans (h.ram a ha)
  color k hk := (h'.color k hk).trans (h.color k hk)
  bank hea := (h'.bank hea).trans (h.bank hea)
  vic hea := (h'.vic hea).trans (h.vic hea)
  sid hea := (h'.sid hea).trans (h.sid hea)
  cia1 hea := (h'.cia1 hea).trans (h.cia1 hea)
  cia2 hea := (h'.cia2 hea).trans (h.cia2 hea)
  nmiAck := h'.nmiAck.trans h.nmiAck
  draws := h'.draws.trans h.draws

theorem WrittenAt.of_same {ea : Word} {s t u : State} (h : WrittenAt ea s t) (hm : SameMemory t u) (hd : SameDevices t u) :
    WrittenAt ea s u :=
  h.trans ⟨fun a _ => hm.ram a, fun k _ => hm.color k, fun _ => hm.bank, fun _ => hd.vic, fun _ => hd.sid, fun _ => hd.cia1,
    fun _ => hd.cia2, hd.nmiAck, hd.draws⟩

theorem WrittenAt.refl (ea : Word) (s : State) : WrittenAt ea s s :=
  ⟨fun _ _ => rfl, fun _ _ => rfl, fun _ => rfl, fun _ => rfl, fun _ => rfl, fun _ => rfl, fun _ => rfl, rfl, rfl⟩

/-- The state between the read and the last write of a read-modify-write (R278). -/
def dummyWritten (ea : Word) (old : Byte) (s : State) : State := if s.cfg.rmwDummyWrite then busWrite ea old s else s

theorem dummyWritten_writtenAt (ea : Word) (old : Byte) (s : State) : WrittenAt ea s (dummyWritten ea old s) := by
  unfold dummyWritten
  split_ifs
  · exact busWrite_writtenAt ea old s
  · exact .refl ea s

/-- A write of the old value does not turn the write after it towards the I/O range: at 0x0001 both reach the bank byte, and
elsewhere the bank mode stands (R112, R114). -/
theorem writeRoute_dummyWritten {ea : Word} {old : Byte} {s : State} (h : writeRoute s.visible ea ≠ .io) :
    writeRoute (dummyWritten ea old s).visible ea ≠ .io := by
  by_cases hea : ea = 1#16
  · simp [writeRoute, hea]
  · have hcfg : (dummyWritten ea old s).cfg = s.cfg := by
      unfold dummyWritten
      split_ifs
      · exact busWrite_cfg ea old s
      · rfl
    rwa [visible_congr ((dummyWritten_writtenAt ea old s).bank hea) hcfg]

/-- Settles O19: each has the shape of a read-modify-write of memory, whose writes stay at the effective address. -/
theorem readModifyWriteOnMemory : Obligations.ReadModifyWriteOnMemory := by
  refine ⟨hasForms_of_decoder (by decide) (by decide), hasForms_of_decoder (by decide) (by decide),
    hasForms_of_decoder (by decide) (by decide), hasForms_of_decoder (by decide) (by decide),
    hasForms_of_decoder (by decide) (by decide), hasForms_of_decoder (by decide) (by decide), fun i s hi hacc => ?_⟩
  intro s0 ea v n r out w
  obtain ⟨t, ht, hpc, hp, hreg, hran, hmem, hdev⟩ := modifyInstr_shape i.opcode hacc (modified i.mnemonic) s
  have hw : w = busWrite ea r (dummyWritten ea v.1 v.2) := by
    simp only [w, dummyWritten]
    rw [show v.2.cfg = s.cfg from busRead_cfg ea s0]
  have hmem' : SameMemory w t := hw ▸ hmem
  have hdev' : SameDevices w t := hw ▸ hdev
  have hframe : WrittenAt ea v.2 t :=
    (hw ▸ (dummyWritten_writtenAt ea v.1 v.2).trans (busWrite_writtenAt ea r _)).of_same hmem' hdev'
  refine ⟨t, (exec_modify hi s).trans ht, hpc, hreg, hp, hran, hmem', hdev', hframe, fun a ha => ?_, fun hroute => ?_⟩
  · exact (hframe.ram a ha).trans (congrArg (·.read a) (busRead_ram ea s0))
  · have hvisible : v.2.visible = s.visible := visible_congr (busRead_bankByte ea s0) (busRead_cfg ea s0)
    rw [hmem'.ram, hw]
    exact busWrite_ram_self (writeRoute_dummyWritten (hvisible ▸ hroute))

end Sys2Proof.Machine
end

section
/-! SUPPORT. The statements about the pulls (42_transfer_stack R228, R229), subroutines, BRK and RTI (45_control R291, R292, R302,
R303), and the halt (60_exceptions R410, R411), settled from the whole state each leaves: what is pushed and pulled is RAM of the
stack page in every bank mode. -/

namespace Sys2Proof.Machine

/-! The pulls. -/

/-- The status of a pulled byte, whatever the stored break flag (R229, R303). -/
theorem restoredFrom_ofByte (v : Byte) (b : Bool) : RestoredFrom (Status.ofByte v b) v := ⟨rfl, rfl, rfl, rfl, rfl, rfl⟩

/-- Settles O11: PLA and PLP are implied instructions whose pull reads RAM of the stack page. -/
theorem pullsLoadFromPageOne : Obligations.PullsLoadFromPageOne := by
  refine ⟨hasForms_implied (i := .pla) rfl, hasForms_implied (i := .plp) rfl, fun s => ⟨?_, ?_⟩⟩
  · have hexec : exec .pla s = finish 0x68#8 0 (((pull (stepOver .impl s)).2.setA (pull (stepOver .impl s)).1).setNZ
        (pull (stepOver .impl s)).1) := rfl
    rw [hexec, pull_eq]
    exact ⟨_, rfl, rfl, rfl, rfl, rfl, rfl, Status.withNZ_eq_nzOf _ _, ⟨rfl, rfl, ⟨rfl, rfl, rfl, rfl, rfl, rfl, rfl⟩⟩,
      ⟨fun _ => rfl, fun _ => rfl, rfl⟩, ⟨rfl, rfl, rfl, rfl, rfl, rfl⟩⟩
  · have hexec : exec .plp s = finish 0x28#8 0 (pullStatus (stepOver .impl s)) := rfl
    rw [hexec, pullStatus_eq]
    exact ⟨_, rfl, rfl, rfl, rfl, rfl, rfl, restoredFrom_ofByte _ _, ⟨rfl, rfl, ⟨rfl, rfl, rfl, rfl, rfl, rfl, rfl⟩⟩,
      ⟨fun _ => rfl, fun _ => rfl, rfl⟩, ⟨rfl, rfl, rfl, rfl, rfl, rfl⟩⟩

/-! Subroutines. -/

/-- The state JSR leaves (R291): the address of its last byte is on the stack, high byte first. -/
def called (a : Word) (s : State) : State :=
  { (s.setPC a).charge (s.cyclesOf 0x20#8) with
    ram := (s.ram.write (stackAddr s.sp).toNat (hiByte (s.pc + 2#16))).write (stackAddr (s.sp - 1#8)).toNat
      (loByte (s.pc + 2#16))
    sp := s.sp - 2#8 }

theorem exec_jsr (a : Word) (s : State) : exec (.jsr a) s = .next (called a s) := by
  have hret : (stepOver (.abs a) s).pc - 1#16 = s.pc + 2#16 := by
    show s.pc + 3#16 - 1#16 = _
    bv_omega
  have hexec : exec (.jsr a) s =
    finish 0x20#8 0 ((pushWord ((stepOver (.abs a) s).pc - 1#16) (stepOver (.abs a) s)).setPC a) := rfl
  rw [hexec, hret, pushWord_eq]
  rfl

theorem called_high (a : Word) (s : State) : (called a s).ram.read (stackAddr s.sp).toNat = hiByte (s.pc + 2#16) := by
  rw [called, Memory.read_write_ne _ (toNat_stackAddr_ne (by bv_omega)), Memory.read_write_self]

theorem called_low (a : Word) (s : State) : (called a s).ram.read (stackAddr (s.sp - 1#8)).toNat = loByte (s.pc + 2#16) :=
  Memory.read_write_self _ _ _

/-- The state RTS leaves (R292): PC is the address after the word pulled. -/
def returned (s : State) : State :=
  { (s.setPC
      (wordOf (s.ram.read (stackAddr (s.sp + 1#8)).toNat) (s.ram.read (stackAddr (s.sp + 2#8)).toNat) + 1#16)).charge
      (s.cyclesOf 0x60#8) with
    sp := s.sp + 2#8 }

theorem exec_rts (s : State) : exec .rts s = .next (returned s) := by
  have hexec : exec .rts s =
    finish 0x60#8 0 ((pullWord (stepOver .impl s)).2.setPC ((pullWord (stepOver .impl s)).1 + 1#16)) := rfl
  rw [hexec, pullWord_eq]
  rfl

theorem hasForms_jsr : HasForms .jsr { abs := some 0x20#8 } := by
  refine hasForms_of (fun i hi => ?_) fun m op hop => ?_
  · cases i with
    | jsr a => rfl
    | _ => cases hi
  · cases m with
    | abs a => exact ⟨.jsr a, rfl, rfl, Option.some.inj hop⟩
    | _ => cases hop

/-- Settles O22: the whole state each leaves. -/
theorem subroutineCallAndReturn : Obligations.SubroutineCallAndReturn := by
  refine ⟨hasForms_jsr, hasForms_implied (i := .rts) rfl, fun a s => ?_, fun s => ?_⟩
  · exact ⟨_, exec_jsr a s, rfl, rfl, rfl, rfl, rfl, rfl, called_high a s, called_low a s,
      fun k h0 h1 => (Memory.read_write_ne _ h1 _).trans (Memory.read_write_ne _ h0 _), fun _ => rfl, rfl,
      ⟨rfl, rfl, ⟨rfl, rfl, rfl, rfl, rfl, rfl, rfl⟩⟩, ⟨rfl, rfl, rfl, rfl, rfl, rfl⟩⟩
  · exact ⟨_, exec_rts s, rfl, rfl, rfl, rfl, rfl, rfl, ⟨rfl, rfl, ⟨rfl, rfl, rfl, rfl, rfl, rfl, rfl⟩⟩,
      ⟨fun _ => rfl, fun _ => rfl, rfl⟩, ⟨rfl, rfl, rfl, rfl, rfl, rfl⟩⟩

theorem stackByte_eq (s : State) (p : Byte) : stackByte s p = s.ram.read (stackAddr p).toNat := by
  rw [stackByte, toNat_stackAddr]

/-- Settles O23: the two bytes RTS pulls are the two JSR pushed, which are those of the address before the return. -/
theorem returnGoesAfterTheCall : Obligations.ReturnGoesAfterTheCall := by
  intro a s t u ht hsp hlow hhigh
  obtain rfl : called a s = t := by
    have h := (exec_jsr a s).symm.trans ht
    injection h
  have hsp1 : (called a s).sp + 1#8 = s.sp - 1#8 := by
    show s.sp - 2#8 + 1#8 = _
    bv_omega
  have hsp2 : (called a s).sp + 2#8 = s.sp := BitVec.sub_add_cancel _ _
  rw [stackByte_eq, stackByte_eq, hsp1, called_low] at hlow
  rw [stackByte_eq, stackByte_eq, hsp2, called_high] at hhigh
  refine ⟨_, exec_rts u, ?_, ?_⟩
  · show wordOf (u.ram.read (stackAddr (u.sp + 1#8)).toNat) (u.ram.read (stackAddr (u.sp + 2#8)).toNat) + 1#16 = _
    rw [hsp, hsp1, hsp2, hlow, hhigh, Laws.wordOf_bytes, BitVec.add_assoc]
    rfl
  · show u.sp + 2#8 = _
    rw [hsp, hsp2]

/-! BRK and RTI. -/

theorem hasForms_brk : HasForms .brk { brk := some 0x00#8 } := by
  refine hasForms_of (fun i hi => ?_) fun m op hop => ?_
  · cases i with
    | brk => rfl
    | _ => cases hi
  · cases m with
    | brk => exact ⟨.brk, rfl, rfl, Option.some.inj hop⟩
    | _ => cases hop

/-- Settles O25: BRK is an entry of the state past its two bytes, with break bit 1. -/
theorem breakEntersTheIrqVector : Obligations.BreakEntersTheIrqVector := by
  refine ⟨hasForms_brk, fun s => ?_⟩
  have hexec : exec .brk s = finish 0x00#8 0 (takeInterrupt true 0xFFFE#16 (stepOver .brk s)) := rfl
  rw [hexec, takeInterrupt_vector true (by decide)]
  exact
    ⟨_, rfl,
      { high := savedOnStack_high true (stepOver .brk s)
        low := savedOnStack_low true (stepOver .brk s)
        status := savedOnStack_status true (stepOver .brk s) ▸ packedAs_pack s.p true
        rest := fun _ => savedOnStack_rest true (stepOver .brk s)
        color := fun _ => rfl
        bank := rfl
        sp := rfl
        flags := rfl
        pc := rfl
        a := rfl
        x := rfl
        y := rfl
        ran := ⟨rfl, rfl, ⟨rfl, rfl, rfl, rfl, rfl, rfl, rfl⟩⟩
        vic := rfl
        cia1 := rfl
        cia2 := rfl
        sid := rfl
        draws := rfl }, rfl⟩

theorem exec_rti (s : State) : exec .rti s = .next ((returnInterrupt (stepOver .impl s)).charge (s.cyclesOf 0x40#8)) := by
  have hexec : exec .rti s = finish 0x40#8 0 (returnInterrupt (stepOver .impl s)) := rfl
  rw [hexec, returnInterrupt_eq]
  rfl

/-- Settles O26: the whole state RTI leaves. -/
theorem returnFromInterruptRestores : Obligations.ReturnFromInterruptRestores := by
  refine ⟨hasForms_implied (i := .rti) rfl, fun s => ?_⟩
  rw [exec_rti, returnInterrupt_eq]
  exact ⟨_, rfl, restoredFrom_ofByte _ _, rfl, rfl, rfl, rfl, rfl, ⟨rfl, rfl, ⟨rfl, rfl, rfl, rfl, rfl, rfl, rfl⟩⟩,
    ⟨fun _ => rfl, fun _ => rfl, rfl⟩, ⟨rfl, rfl, rfl, rfl, rfl, rfl⟩⟩

/-- What an entry through any vector leaves of the CPU and the stack: the vector's two reads reach neither (R123, R421). -/
theorem takeInterrupt_stack (b : Bool) (vector : Word) (s : State) :
    let t := takeInterrupt b vector s
    t.ram = savedOnStack b s ∧ t.sp = s.sp - 3#8 ∧ t.a = s.a ∧ t.x = s.x ∧ t.y = s.y := by
  rw [takeInterrupt_eq]
  simp only [busRead16, State.setPC_ram, State.setPC_sp, State.setPC_a, State.setPC_x, State.setPC_y, busRead_ram, busRead_sp,
    busRead_a, busRead_x, busRead_y]
  exact ⟨rfl, trivial, trivial, trivial, trivial⟩

/-- Settles O31: the three bytes RTI pulls are the three the entry pushed. -/
theorem returnUndoesInterruptEntry : Obligations.ReturnUndoesInterruptEntry := by
  intro b vector s
  obtain ⟨-, hrti⟩ := returnFromInterruptRestores
  obtain ⟨t, ht, hp, hpc, hsp, ha, hx, hy, -⟩ := hrti (takeInterrupt b vector s)
  obtain ⟨hram, hsp', ha', hx', hy'⟩ := takeInterrupt_stack b vector s
  have h1 : s.sp - 3#8 + 1#8 = s.sp - 2#8 := by bv_omega
  have h2 : s.sp - 3#8 + 2#8 = s.sp - 1#8 := by bv_omega
  have h3 : s.sp - 3#8 + 3#8 = s.sp := BitVec.sub_add_cancel _ _
  rw [hram, hsp', h1, savedOnStack_status] at hp
  rw [hram, hsp', h2, h3, savedOnStack_low, savedOnStack_high, Laws.wordOf_bytes] at hpc
  have hpack := packedAs_pack s.p b
  exact ⟨t, ht, hpc, by rw [hsp, hsp', h3], ha.trans ha', hx.trans hx', hy.trans hy', hp.negative.trans hpack.negative,
    hp.overflow.trans hpack.overflow, hp.decimal.trans hpack.decimal, hp.interrupt.trans hpack.interrupt,
    hp.zero.trans hpack.zero, hp.carry.trans hpack.carry⟩

/-! The reset. -/

/-- The state of a reset before it reads its vector (R800). -/
def resetRegisters (d : ResetDraws) (s : State) : State :=
  { s with
    a := d.a, x := d.x, y := d.y, sp := d.sp, p := Status.ofReset d.flags
    halted := false, haltPC := d.haltPC, haltOp := d.haltOp, nmiAck := true, lineCycles := 0, sinceCheck := 0
    phase := .lineStart, bankByte := s.cfg.resetBankByte, vic := Vic.reset, cia1 := Cia.reset, cia2 := Cia.reset
    sid := Sid.reset, inject := none }

/-- The whole state a reset leaves (R800, R802): the vector's reads are pure. -/
theorem resetWith_eq (d : ResetDraws) (s : State) :
    resetWith d s = (resetRegisters d s).setPC (vectorWord (resetRegisters d s) 0xFFFC#16) := by
  show (busRead16 0xFFFC#16 (resetRegisters d s)).2.setPC (busRead16 0xFFFC#16 (resetRegisters d s)).1 = _
  rw [busRead16_vector (by decide)]

/-- Settles O54: with the bank byte at 0x37 the KERNAL image is visible, so the vector is read from it. -/
theorem hostResetKeepsMemoryAndReadsTheVector : Obligations.HostResetKeepsMemoryAndReadsTheVector := by
  intro d s htable hbyte
  have hkernal : (resetRegisters d s).visible.kernal = true := by
    show (bankRow s.cfg.bankTable (s.cfg.resetBankByte.extractLsb' 0 3)).kernal = true
    rw [htable, hbyte]
    rfl
  rw [resetWith_eq]
  refine ⟨rfl, rfl, rfl, ?_, rfl, rfl, rfl, rfl, rfl, hbyte, rfl, rfl, rfl, rfl, rfl, rfl⟩
  show vectorWord (resetRegisters d s) 0xFFFC#16 = _
  rw [vectorWord, hkernal]
  rfl

/-- Settles O53: each value is written in the reset state. -/
theorem resetValues : Obligations.ResetValues := by
  refine ⟨rfl, rfl, rfl, rfl, rfl, rfl, rfl, rfl, fun _ => rfl, rfl, rfl, rfl, rfl, rfl, rfl, fun id => ?_, fun k => ?_, rfl, rfl⟩
  · cases id <;> decide
  · have hchip : State.reset.sid.chip k = SidChip.reset := by fin_cases k <;> rfl
    rw [hchip]
    exact ⟨fun _ => rfl, rfl, rfl, by decide⟩

/-! The halt. -/

theorem hostStep_reset_of_halted {s : State} (h : s.halted = true) (hr : s.cfg.resetOnHalt = true) :
    hostStep .reset s = hostReset s := by
  simp only [hostStep, hostAct, h, hr, if_true]

/-- Settles O28: the halt record is written and nothing else; a halted core's step looks at the host's plan for a reset alone. -/
theorem illegalOpcodeHaltsForGood : Obligations.IllegalOpcodeHaltsForGood := by
  refine ⟨fun op s => ?_, fun s hs => ?_⟩
  · exact ⟨_, rfl, rfl, rfl, rfl, rfl, rfl, ⟨rfl, rfl, rfl, rfl⟩, ⟨fun _ => rfl, fun _ => rfl, rfl⟩,
      ⟨rfl, rfl, rfl, rfl, rfl, rfl⟩, rfl, rfl, rfl, rfl, rfl, rfl⟩
  · have hstep : step s = haltedStep s := by rw [step, machineStep, if_pos hs]
    rw [hstep, haltedStep]
    refine ⟨fun h => ?_, fun rest hplan hreset => ?_⟩
    · split
      · rename_i rest hplan
        rw [if_neg (by simpa using h.resolve_left fun hne => hne rest hplan)]
      · rfl
    · rw [hplan]
      dsimp only
      rw [if_pos hreset, hostStep_reset_of_halted (s := { s with hostPlan := rest }) hs hreset, hostReset, resetWith_eq]
      exact ⟨_, rfl, rfl, rfl, rfl⟩

end Sys2Proof.Machine
end

section
/-! SUPPORT. The statement about the decimal helpers (43_arithmetic R241, R242), settled from the result and flags of each as
numbers, on all bytes; the decimal sum and difference are then arithmetic on two digits. -/

namespace Sys2Proof.Machine

theorem toNat_and_0xF0 (v : Byte) : (v &&& 0xF0#8).toNat = v.toNat / 16 * 16 := by
  revert v
  decide

theorem bcdLegal_99_iff (v : Byte) : bcdLegal v 0x99#8 = true ↔ v.toNat ≤ 0x99 ∧ v.toNat % 16 ≤ 9 := by
  simp [bcdLegal]

/-- Bit 7 of a number taken modulo 256. -/
theorem getLsbD_ofInt_seven (t : Int) : (BitVec.ofInt 8 t).getLsbD 7 = true ↔ 128 ≤ t % 256 := by
  have hmsb : (BitVec.ofInt 8 t).getLsbD 7 = (BitVec.ofInt 8 t).msb := rfl
  rw [hmsb, BitVec.msb_eq_decide, BitVec.toNat_ofInt, decide_eq_true_iff]
  omega

/-! The sum. -/

/-- The sum S of the two bytes' digits, the low one adjusted, before the high one's adjustment (R241). -/
def addDecSum (a b : Byte) (c : Bool) : Nat := a.toNat / 16 * 16 + b.toNat / 16 * 16 + addDecLow a b c

/-- The adjusted sum (R241). -/
def addDecAdjusted (a b : Byte) (c : Bool) : Nat :=
  if 0xA0 ≤ addDecSum a b c then addDecSum a b c + 0x60 else addDecSum a b c

theorem addDec_sum (a b : Byte) (c : Bool) :
    (a &&& 0xF0#8).toNat + (b &&& 0xF0#8).toNat + addDecLow a b c = addDecSum a b c := by
  rw [toNat_and_0xF0, toNat_and_0xF0, addDecSum]

theorem toNat_addDec_r (a b : Byte) (c : Bool) : (addDec a b c).r.toNat = addDecAdjusted a b c % 256 := by
  show (BitVec.ofNat 8 _).toNat = _
  rw [BitVec.toNat_ofNat, addDec_sum]
  rfl

theorem addDec_c_iff (a b : Byte) (c : Bool) : (addDec a b c).c = true ↔ 0x100 ≤ addDecAdjusted a b c := by
  show decide _ = true ↔ _
  rw [decide_eq_true_iff, addDec_sum]
  rfl

/-- On decimal digits the adjusted sum is the decimal sum (R241). -/
theorem addDec_decimal {a b : Byte} (c : Bool) (ha : bcdLegal a 0x99#8 = true) (hb : bcdLegal b 0x99#8 = true) :
    bcdLegal (addDec a b c).r 0x99#8 = true ∧
      bcdValue (addDec a b c).r + 100 * (addDec a b c).c.toNat = bcdValue a + bcdValue b + c.toNat := by
  rw [bcdLegal_99_iff] at ha hb ⊢
  have hr := toNat_addDec_r a b c
  have hc := addDec_c_iff a b c
  have hcarry := c.toNat_le
  simp only [bcdValue]
  generalize (addDec a b c).r.toNat = r at hr ⊢
  simp only [addDecAdjusted, addDecSum, addDecLow] at hr hc
  cases ho : (addDec a b c).c with
  | false =>
    simp only [ho, Bool.toNat_false, false_iff, Bool.false_eq_true] at hc ⊢
    split_ifs at hr hc <;> omega
  | true =>
    simp only [ho, Bool.toNat_true, true_iff] at hc ⊢
    split_ifs at hr hc <;> omega

/-! The difference. -/

/-- The difference before the high digit's adjustment (R242). -/
def subDecDifference (a b : Byte) (c : Bool) : Int :=
  let low : Int := ((a.toNat % 16 : Nat) : Int) - (b.toNat % 16 : Nat) + c.toNat - 1
  let al := if low < 0 then (low - 0x06) % 16 - 0x10 else low
  ((a.toNat / 16 * 16 : Nat) : Int) - (b.toNat / 16 * 16 : Nat) + al

theorem toNat_subDec_r (a b : Byte) (c : Bool) :
    ((subDec a b c).r.toNat : Int) =
      (if subDecDifference a b c < 0 then subDecDifference a b c - 0x60 else subDecDifference a b c) % 256 := by
  show ((BitVec.ofInt 8 _).toNat : Int) = _
  rw [BitVec.toNat_ofInt, toNat_and_0xF0, toNat_and_0xF0, Int.toNat_of_nonneg (Int.emod_nonneg _ (by decide))]
  rfl

/-- On decimal digits the adjusted difference is the decimal difference modulo 100 (R242). -/
theorem subDec_decimal {a b : Byte} (c : Bool) (ha : bcdLegal a 0x99#8 = true) (hb : bcdLegal b 0x99#8 = true) :
    bcdLegal (subDec a b c).r 0x99#8 = true ∧
      (bcdValue (subDec a b c).r : Int) =
        bcdValue a - bcdValue b - (1 - c.toNat) + 100 * (1 - (subDec a b c).c.toNat) := by
  rw [bcdLegal_99_iff] at ha hb ⊢
  have hr := toNat_subDec_r a b c
  have hc : (subDec a b c).c = true ↔ _ := addBin_c_iff a (b ^^^ 0xFF#8) c
  rw [toNat_xor_0xFF] at hc
  have hcarry := c.toNat_le
  simp only [bcdValue]
  generalize (subDec a b c).r.toNat = r at hr ⊢
  simp only [subDecDifference] at hr
  cases ho : (subDec a b c).c with
  | false =>
    simp only [ho, Bool.toNat_false, false_iff, Bool.false_eq_true] at hc ⊢
    split_ifs at hr <;> omega
  | true =>
    simp only [ho, Bool.toNat_true, true_iff] at hc ⊢
    split_ifs at hr <;> omega

/-- Settles O13: the results and flags as numbers, on all bytes, and the decimal sum and difference on digits. -/
theorem decimalAddAndSubtractAreDecimal : Obligations.DecimalAddAndSubtractAreDecimal := by
  refine ⟨fun a b c ha hb => ⟨addDec_decimal c ha hb, subDec_decimal c ha hb⟩, fun a b c => ⟨rfl, rfl, rfl, rfl⟩,
    fun a b c => ?_, fun a b c => toNat_subDec_r a b c, by decide, by decide, by decide, by decide⟩
  refine ⟨toNat_addDec_r a b c, addDec_c_iff a b c, getLsbD_ofInt_seven _, ?_, ?_⟩
  · exact (Bool.or_eq_true _ _).to_iff.trans (or_congr decide_eq_true_iff decide_eq_true_iff)
  · have hz : (addDec a b c).z = (BitVec.ofNat 8 (a.toNat + b.toNat + c.toNat) == 0#8) := rfl
    rw [hz, beq_iff_eq, ← BitVec.toNat_inj, BitVec.toNat_ofNat]
    rfl

end Sys2Proof.Machine
end

section
/-! SUPPORT. The statements about the interrupt lines (60_exceptions R415), the timer controllers' ports and registers
(61_timer_controller R500, R511 to R525) and the tick of the clock (R551 to R554). -/

namespace Sys2Proof.Machine

/-! The interrupt lines. -/

/-- Some enabled bit of a latch is set (R415, R530, R616). -/
theorem and_bne_zero_iff {w : Nat} (latch enable : BitVec w) :
    (latch &&& enable != 0#w) = true ↔ ∃ k < w, latch.getLsbD k = true ∧ enable.getLsbD k = true := by
  rw [bne_iff_ne, ne_eq, ← not_iff_not, not_not]
  constructor
  · rintro h ⟨k, -, hk⟩
    have hbit := congrArg (·.getLsbD k) h
    simp [hk] at hbit
  · intro h
    refine BitVec.eq_of_getLsbD_eq fun k hk => ?_
    rw [BitVec.getLsbD_zero, BitVec.getLsbD_and, Bool.and_eq_false_iff]
    by_contra hbits
    exact h ⟨k, hk, by simpa using hbits⟩

/-- A timer controller's composite is set when an unmasked latch bit is (R530). -/
theorem CiaInv.icrFlag_iff {c : Cia} (h : CiaInv c) :
    c.icrFlag = true ↔ ∃ k < 5, c.icrLatch.getLsbD k = true ∧ c.icrMask.getLsbD k = true := by
  rw [h.composite, and_bne_zero_iff]

/-- Settles O30: each line is a composite, which is an enabled latch bit. -/
theorem interruptLinesFollowLatchAndEnable : Obligations.InterruptLinesFollowLatchAndEnable := by
  refine fun s h1 h2 => ⟨?_, h2.icrFlag_iff⟩
  rw [State.irqLine, Bool.or_eq_true, h1.icrFlag_iff, Vic.irq, and_bne_zero_iff]

/-! The ports. -/

theorem getLsbD_setBit (v : Byte) (b : Bool) {k j : Nat} (hk : k < 8) (hj : j < 8) :
    (setBit v k b).getLsbD j = if j = k then b else v.getLsbD j := by
  have hbit : (1#8 <<< k).getLsbD j = decide (j = k) :=
    (by decide : ∀ k < 8, ∀ j < 8, (1#8 <<< k).getLsbD j = decide (j = k)) k hk j hj
  cases b with
  | false =>
    rw [setBit, if_neg Bool.false_ne_true, BitVec.getLsbD_and, BitVec.getLsbD_not, hbit, decide_eq_true hj]
    by_cases hjk : j = k <;> simp [hjk]
  | true =>
    rw [setBit, if_pos rfl, BitVec.getLsbD_or, hbit]
    by_cases hjk : j = k <;> simp [hjk]

/-- The bits of port B's output value: the timer outputs on 6 and 7, where they are on (R511, R514). -/
theorem Cia.getLsbD_outB (c : Cia) {k : Nat} (hk : k < 8) :
    c.outB.getLsbD k =
      if k = 7 ∧ c.pbonB = true then c.toggleB && c.pb7
      else if k = 6 ∧ c.pbonA = true then c.toggleA && c.pb6
      else (c.prb ||| ~~~c.ddrb).getLsbD k := by
  unfold Cia.outB
  dsimp only
  cases c.pbonA <;> cases c.pbonB <;>
    simp only [if_true, Bool.false_eq_true, if_false, and_true, and_false, getLsbD_setBit _ _ (by decide : 6 < 8) hk,
      getLsbD_setBit _ _ (by decide : 7 < 8) hk]

theorem Cia.outB_bits (c : Cia) :
    (∀ k < 6, c.outB.getLsbD k = (c.prb ||| ~~~c.ddrb).getLsbD k) ∧
      c.outB.getLsbD 6 = (if c.cra.getLsbD 1 then c.cra.getLsbD 2 && c.pb6 else (c.prb ||| ~~~c.ddrb).getLsbD 6) ∧
      c.outB.getLsbD 7 = (if c.crb.getLsbD 1 then c.crb.getLsbD 2 && c.pb7 else (c.prb ||| ~~~c.ddrb).getLsbD 7) := by
  refine ⟨fun k hk => ?_, ?_, ?_⟩
  · rw [c.getLsbD_outB (by omega), if_neg (by omega), if_neg (by omega)]
  · rw [c.getLsbD_outB (by decide)]
    simp [Cia.pbonA, Cia.toggleA]
  · rw [c.getLsbD_outB (by decide)]
    simp [Cia.pbonB, Cia.toggleB]

/-! Reads and writes. -/

/-- A control write's toggle output (R522, R523): it is set by a start, and by nothing else. -/
theorem startSets_iff (out running start : Bool) :
    (out || (!running && start)) = true ↔ out = true ∨ (running = false ∧ start = true) := by
  revert out running start
  decide

/-- Settles O44: each register's write and read is its arm of the dispatch, and the ports' bits are those of the output value. -/
theorem timerControllerRegisters : Obligations.TimerControllerRegisters := by
  refine ⟨fun c v => ?_, fun id s => ?_, fun s => ?_, fun s => ?_⟩
  · exact ⟨rfl, rfl, rfl, rfl, rfl, rfl, rfl, rfl, rfl, ⟨rfl, rfl, startSets_iff _ _ _, rfl⟩, rfl, rfl,
      startSets_iff _ _ _, rfl⟩
  · exact ⟨rfl, rfl, rfl, rfl, rfl, rfl, rfl, rfl, rfl⟩
  · exact ⟨rfl, rfl, s.cia2.outB_bits⟩
  · obtain ⟨hlow, h6, h7⟩ := s.cia1.outB_bits
    have hport (k : Nat) : ((ciaRead .cia1 0x1#4 s).1).getLsbD k =
        (s.cia1.outB.getLsbD k && (Config.freeByte s.draws).getLsbD k) := BitVec.getLsbD_and
    exact ⟨rfl, rfl, fun k hk => by rw [hport, hlow k hk], by rw [hport, h6], by rw [hport, h7]⟩

/-! The clock. -/

/-- The next value of a seconds or minutes field (R551): legal, and one more, modulo 60 with the carry. -/
theorem incBcd_sixty : ∀ x : Byte, x.toNat / 16 ≤ 5 ∧ x.toNat % 16 ≤ 9 →
    bcdLegal x 0x59 = true ∧ ((incBcd x 0x59).1.toNat / 16 ≤ 5 ∧ (incBcd x 0x59).1.toNat % 16 ≤ 9) ∧
      bcdValue (incBcd x 0x59).1 + 60 * (incBcd x 0x59).2.toNat = bcdValue x + 1 := by decide

theorem bcdValue_lt_sixty {x : Byte} (h : x.toNat / 16 ≤ 5 ∧ x.toNat % 16 ≤ 9) : bcdValue x < 60 := by
  unfold bcdValue
  omega

/-- The next value of the tenths (R551). -/
theorem incBcd_ten : ∀ x : Byte, x.toNat ≤ 9 →
    bcdLegal x 0x09 = true ∧ (incBcd x 0x09).1.toNat ≤ 9 ∧
      (incBcd x 0x09).1.toNat + 10 * (incBcd x 0x09).2.toNat = x.toNat + 1 := by decide

/-- The hour of a day that an hours field stands for: 12 AM is 0, 12 PM is 12 (R504). -/
def hourOfDay (hr : Byte) : Nat := bcdValue (hr &&& 0x1F#8) % 12 + if hr.getLsbD 7 then 12 else 0

/-- The next hour (R551): legal, and one more modulo 24. -/
theorem incHours_legal : ∀ hr : Byte,
    (1 ≤ hr.toNat % 128 ∧ hr.toNat % 128 ≤ 9) ∨ (0x10 ≤ hr.toNat % 128 ∧ hr.toNat % 128 ≤ 0x12) →
    hoursLegal hr = true ∧
      ((1 ≤ (incHours hr).toNat % 128 ∧ (incHours hr).toNat % 128 ≤ 9) ∨
        (0x10 ≤ (incHours hr).toNat % 128 ∧ (incHours hr).toNat % 128 ≤ 0x12)) ∧
      hourOfDay (incHours hr) = (hourOfDay hr + 1) % 24 := by decide

theorem incField_of_legal {x max mask : Byte} (h : bcdLegal x max = true) (s : State) :
    incField x max mask s = (incBcd x max, s) := by
  rw [incField, if_pos h]

theorem incHoursField_of_legal {hr : Byte} (h : hoursLegal hr = true) (s : State) :
    incHoursField hr s = (incHours hr, s) := by
  rw [incHoursField, if_pos h]

theorem hourOfDay_lt (hr : Byte) : hourOfDay hr < 24 := by
  unfold hourOfDay
  split_ifs <;> omega

theorem todTenths_eq (t : Tod) :
    todTenths t = ((hourOfDay t.hr * 60 + bcdValue t.min) * 60 + bcdValue t.sec) * 10 + t.t10.toNat := rfl

/-- A tick of a legal time (R551, R554): each field steps when the one below it carries. -/
theorem todInc_legal {t : Tod} (h : LegalTod t) (s : State) :
    LegalTod (todInc t s).1 ∧ todTenths (todInc t s).1 = (todTenths t + 1) % 864000 ∧ (todInc t s).2 = s := by
  obtain ⟨ht, hs, hm, hh⟩ := h
  obtain ⟨lt, ht', vt⟩ := incBcd_ten t.t10 ht
  obtain ⟨ls, hls, vs⟩ := incBcd_sixty t.sec hs
  obtain ⟨lm, hlm, vm⟩ := incBcd_sixty t.min hm
  obtain ⟨lh, hh', vh⟩ := incHours_legal t.hr hh
  have hhour := hourOfDay_lt t.hr
  have hsec := bcdValue_lt_sixty hs
  have hmin := bcdValue_lt_sixty hm
  have hsec' := bcdValue_lt_sixty hls
  have hmin' := bcdValue_lt_sixty hlm
  simp only [todInc, incField_of_legal lt, incField_of_legal ls, incField_of_legal lm, incHoursField_of_legal lh]
  cases ct : (incBcd t.t10 0x09).2 with
  | false =>
    rw [ct] at vt
    refine ⟨⟨ht', hs, hm, hh⟩, ?_, rfl⟩
    simp only [todTenths_eq, Bool.toNat_false, Bool.false_eq_true, if_false] at vt ⊢
    omega
  | true =>
    rw [ct] at vt
    cases cs : (incBcd t.sec 0x59).2 with
    | false =>
      rw [cs] at vs
      refine ⟨⟨ht', hls, hm, hh⟩, ?_, rfl⟩
      simp only [todTenths_eq, Bool.toNat_false, Bool.toNat_true, Bool.false_eq_true, if_false, if_true] at vt vs ⊢
      omega
    | true =>
      rw [cs] at vs
      cases cm : (incBcd t.min 0x59).2 with
      | false =>
        rw [cm] at vm
        refine ⟨⟨ht', hls, hlm, hh⟩, ?_, rfl⟩
        simp only [todTenths_eq, Bool.toNat_false, Bool.toNat_true, Bool.false_eq_true, if_false, if_true] at vt vs vm ⊢
        omega
      | true =>
        rw [cm] at vm
        refine ⟨⟨ht', hls, hlm, hh'⟩, ?_, rfl⟩
        simp only [todTenths_eq, Bool.toNat_true, if_true] at vt vs vm ⊢
        omega

theorem Cia.latch_compareAlarm {c : Cia} {old : Tod} (h : c.tod ≠ old) :
    (c.compareAlarm old).tod = c.tod ∧
      (c.compareAlarm old).icrLatch = if c.tod = c.alarm then c.icrLatch ||| 4#5 else c.icrLatch := by
  unfold Cia.compareAlarm
  by_cases ha : c.tod = c.alarm
  · rw [if_pos ⟨h, ha⟩, if_pos ha]
    exact ⟨rfl, rfl⟩
  · rw [if_neg fun hc => ha hc.2, if_neg ha]
    exact ⟨rfl, rfl⟩

theorem cia_todTick {id : CiaId} {s : State} (h : (s.cia id).todRunning = true) :
    (todTick id s).cia id = Cia.compareAlarm { s.cia id with tod := (todInc (s.cia id).tod s).1 } (s.cia id).tod := by
  simp only [todTick]
  rw [if_pos h]
  cases id <;> rfl

/-- A tenth of a second before noon the clock ticks to 12 PM (R551). -/
theorem todInc_noon (s : State) : (todInc ⟨0x09#8, 0x59#8, 0x59#8, 0x11#8⟩ s).1 = ⟨0x00#8, 0x00#8, 0x00#8, 0x92#8⟩ := by
  simp [todInc, incField, bcdLegal, incBcd, incHoursField, hoursLegal, incHours]

/-- Settles O47: a tick of a legal time is one tenth more, so it changes the time, and the alarm is compared with the new one. -/
theorem clockTicksOneTenthOfASecond : Obligations.ClockTicksOneTenthOfASecond := by
  refine ⟨fun t s h => todInc_legal h s, fun id s h => ?_, fun id s hrun hlegal => ?_, todInc_noon⟩
  · rw [todTick, if_neg (Bool.eq_false_iff.mp h)]
  · intro c w
    have hw : w = _ := cia_todTick hrun
    have hchanged : (todInc (s.cia id).tod s).1 ≠ (s.cia id).tod := by
      intro heq
      obtain ⟨-, hnext, -⟩ := todInc_legal hlegal s
      have := congrArg todTenths heq
      omega
    rw [hw]
    obtain ⟨htod, hlatch⟩ := Cia.latch_compareAlarm (c := { c with tod := (todInc c.tod s).1 }) hchanged
    exact ⟨htod, hlatch.trans (by rw [htod])⟩

end Sys2Proof.Machine
end

section
/-! SUPPORT. The statements about the envelope's release (63_sound_engine R711, R719, R722) and the samples (R720, R745): on its way
down a release is known by its envelope value alone, and a cycle of the engine either makes a frame or does not. -/

namespace Sys2Proof.Machine

/-! The release. -/

/-- The exponential period at an envelope value of a release from full volume (R719). -/
def releasePeriod (env : Byte) : ExpPeriod :=
  if 0x5D < env.toNat then .p1
  else if 0x36 < env.toNat then .p2
  else if 0x1A < env.toNat then .p4
  else if 0x0E < env.toNat then .p8
  else if 0x06 < env.toNat then .p16
  else if 0x00 < env.toNat then .p30
  else .p1

/-- The rate ticks from full volume to an envelope value (R722). -/
def releaseTicks (env : Byte) : Nat :=
  if 0x5D ≤ env.toNat then 0xFF - env.toNat
  else if 0x36 ≤ env.toNat then 162 + 2 * (0x5D - env.toNat)
  else if 0x1A ≤ env.toNat then 240 + 4 * (0x36 - env.toNat)
  else if 0x0E ≤ env.toNat then 352 + 8 * (0x1A - env.toNat)
  else if 0x06 ≤ env.toNat then 448 + 16 * (0x0E - env.toNat)
  else 576 + 30 * (0x06 - env.toNat)

theorem releasePeriod_sub_one : ∀ env : Byte, env ≠ 0 → (releasePeriod env).after (env - 1#8) = releasePeriod (env - 1#8) := by
  decide

theorem releaseTicks_sub_one : ∀ env : Byte, env ≠ 0 →
    releaseTicks (env - 1#8) = releaseTicks env + (releasePeriod env).value.toNat := by
  decide

/-- The voice in a release from full volume that has just come to an envelope value. -/
def Voice.releasing (v : Voice) (env : Byte) : Voice :=
  { v with env := env, adsr := .release, holdZero := env == 0x00#8, expCounter := 0, expPeriod := releasePeriod env }

theorem ExpPeriod.value_pos (p : ExpPeriod) : 0 < p.value.toNat := by
  cases p <;> decide

/-- Between two steps a rate tick counts (R719). -/
theorem Voice.rateTick_count {v : Voice} (r : VoiceRegs) {n : Nat} (hrel : v.adsr = .release)
    (hn : n + 1 < v.expPeriod.value.toNat) :
    Voice.rateTick { v with expCounter := BitVec.ofNat 5 n } r = { v with expCounter := BitVec.ofNat 5 (n + 1) } := by
  have hlt : v.expPeriod.value.toNat < 32 := v.expPeriod.value.isLt
  have hne : BitVec.ofNat 5 n + 1 ≠ v.expPeriod.value := by
    intro h
    have := congrArg BitVec.toNat h
    rw [BitVec.toNat_add, BitVec.toNat_ofNat] at this
    simp at this
    omega
  rw [Voice.rateTick, if_neg (by simp [hrel]), if_neg hne, BitVec.ofNat_add]
  rfl

theorem Voice.iterate_rateTick_count {v : Voice} (r : VoiceRegs) (hrel : v.adsr = .release) (hcount : v.expCounter = 0) {n : Nat}
    (hn : n < v.expPeriod.value.toNat) :
    (fun w : Voice => w.rateTick r)^[n] v = { v with expCounter := BitVec.ofNat 5 n } := by
  induction n with
  | zero => exact congrArg (fun c => { v with expCounter := c }) hcount
  | succ n ih => rw [Function.iterate_succ_apply', ih (by omega), Voice.rateTick_count r hrel hn]

/-- A rate tick at which the exponential counter reaches its period clears it and steps the envelope (R719). -/
theorem Voice.rateTick_step {v : Voice} (r : VoiceRegs) (hrel : v.adsr = .release)
    (hcount : v.expCounter + 1 = v.expPeriod.value) : v.rateTick r = Voice.envStep { v with expCounter := 0 } r := by
  rw [Voice.rateTick, if_neg (by simp [hrel]), if_pos hcount]

/-- A rate tick that completes the exponential period steps the envelope down (R711, R719). -/
theorem Voice.rateTick_releasing (v : Voice) (r : VoiceRegs) {env : Byte} (henv : env ≠ 0) :
    Voice.rateTick { v.releasing env with expCounter := BitVec.ofNat 5 ((releasePeriod env).value.toNat - 1) } r =
      v.releasing (env - 1#8) := by
  have hcount : BitVec.ofNat 5 ((releasePeriod env).value.toNat - 1) + 1 = (releasePeriod env).value := by
    cases releasePeriod env <;> rfl
  have hhold : (env == 0x00#8) = false := beq_eq_false_iff_ne.mpr henv
  have hdown : envDown env = env - 1#8 := if_neg henv
  rw [Voice.rateTick_step r rfl hcount]
  simp [Voice.envStep, Voice.releasing, hhold, hdown, releasePeriod_sub_one env henv]

/-- From one envelope value to the next a release takes its exponential period in rate ticks (R719). -/
theorem Voice.iterate_rateTick_period (v : Voice) (r : VoiceRegs) {env : Byte} (henv : env ≠ 0) :
    (fun w : Voice => w.rateTick r)^[(releasePeriod env).value.toNat] (v.releasing env) = v.releasing (env - 1#8) := by
  have hpos := (releasePeriod env).value_pos
  obtain ⟨n, hn⟩ : ∃ n, (releasePeriod env).value.toNat = n + 1 := ⟨_, (Nat.sub_add_cancel hpos).symm⟩
  have hlast := v.rateTick_releasing r henv
  rw [hn, Nat.add_sub_cancel] at hlast
  rw [hn, Function.iterate_succ_apply', Voice.iterate_rateTick_count r rfl rfl (Nat.lt_of_succ_le hn.ge), hlast]

/-- A release from full volume comes to each envelope value after its number of rate ticks (R722). -/
theorem Voice.iterate_rateTick_releasing (v : Voice) (r : VoiceRegs) (n : Nat) (hn : n ≤ 255) :
    (fun w : Voice => w.rateTick r)^[releaseTicks (0xFF#8 - BitVec.ofNat 8 n)] (v.releasing 0xFF#8) =
      v.releasing (0xFF#8 - BitVec.ofNat 8 n) := by
  induction n with
  | zero => rfl
  | succ n ih =>
    have henv : 0xFF#8 - BitVec.ofNat 8 n ≠ 0 := by
      intro h
      have := congrArg BitVec.toNat h
      simp at this
      omega
    have hnext : 0xFF#8 - BitVec.ofNat 8 (n + 1) = 0xFF#8 - BitVec.ofNat 8 n - 1#8 := by
      rw [BitVec.ofNat_add, BitVec.sub_sub]
    rw [hnext, releaseTicks_sub_one _ henv, Nat.add_comm, Function.iterate_add_apply, ih (by omega),
      Voice.iterate_rateTick_period v r henv]

/-- Once the hold latch is set a rate tick leaves the envelope at rest (R711). -/
theorem Voice.iterate_rateTick_held {v : Voice} (r : VoiceRegs) (hrel : v.adsr = .release) (hhold : v.holdZero = true) (n : Nat) :
    let w := (fun w : Voice => w.rateTick r)^[n] v
    w.env = v.env ∧ w.holdZero = true ∧ w.adsr = .release := by
  induction n with
  | zero => exact ⟨rfl, hhold, hrel⟩
  | succ n ih =>
    obtain ⟨he, hh, hr⟩ := ih
    rw [Function.iterate_succ_apply']
    generalize (fun w : Voice => w.rateTick r)^[n] v = w at he hh hr
    show (w.rateTick r).env = _ ∧ (w.rateTick r).holdZero = _ ∧ (w.rateTick r).adsr = _
    rw [Voice.rateTick, if_neg (by simp [hr])]
    split_ifs
    · rw [Voice.envStep, if_pos hh]
      exact ⟨he, hh, hr⟩
    · exact ⟨he, hh, hr⟩

/-- Settles O50: full volume is a release's first value, 1 comes after 726 ticks and lasts 30, and 0 after 756 holds. -/
theorem releaseReachesZeroAfter756Ticks : Obligations.ReleaseReachesZeroAfter756Ticks := by
  intro v r henv hadsr hhold hcount hperiod after
  have hv : v = v.releasing 0xFF#8 := by
    cases v
    subst henv hadsr hhold hcount hperiod
    rfl
  have hone : after 726 = v.releasing 0x01#8 := by
    have h := v.iterate_rateTick_releasing r 254 (by decide)
    rwa [← hv] at h
  have hzero : after 756 = v.releasing 0x00#8 := by
    have h := v.iterate_rateTick_releasing r 255 (by decide)
    rwa [← hv] at h
  have hadd (m n : Nat) : after (m + n) = (fun w : Voice => w.rateTick r)^[n] (after m) := by
    show (fun w : Voice => w.rateTick r)^[m + n] v = _
    rw [Nat.add_comm, Function.iterate_add_apply]
  refine ⟨?_, fun n hn => ?_⟩
  · have hlast : 29 < (releasePeriod 0x01#8).value.toNat := by decide
    rw [show 755 = 726 + 29 from rfl, hadd, hone, Voice.iterate_rateTick_count r rfl rfl hlast]
    exact (by decide : (0x01#8 : Byte) ≠ 0x00#8)
  · obtain ⟨k, rfl⟩ := Nat.exists_eq_add_of_le hn
    rw [hadd, hzero]
    obtain ⟨he, hh, -⟩ := Voice.iterate_rateTick_held (v := v.releasing 0x00#8) r rfl rfl k
    exact ⟨he, hh⟩

/-! Samples and the ring. -/

theorem Sid.cycle_idle {d : Sid} {hz : Nat} (h : d.sampleAcc + Config.sampleRate < hz) :
    (d.cycle hz).2 = none ∧ (d.cycle hz).1.sampleAcc = d.sampleAcc + Config.sampleRate ∧ (d.cycle hz).1.ring = d.ring := by
  simp [Sid.cycle, sampleStep, Nat.not_le.mpr h]

/-- A cycle in which a frame is due appends it to the ring (R720, R743, R745). -/
theorem Sid.cycle_due {d : Sid} {hz : Nat} (h : hz ≤ d.sampleAcc + Config.sampleRate) :
    (d.cycle hz).1.sampleAcc = d.sampleAcc + Config.sampleRate - hz ∧
      ∃ frame : List Int,
        (d.ring.length + 1 < Config.ringSamples → (d.cycle hz).2 = none ∧ (d.cycle hz).1.ring = d.ring ++ [frame]) ∧
        (d.ring.length + 1 = Config.ringSamples →
          (d.cycle hz).2 = some (d.ring ++ [frame]) ∧ (d.cycle hz).1.ring = []) := by
  have hstep : sampleStep d.sampleAcc Config.sampleRate hz = (d.sampleAcc + Config.sampleRate - hz, true) := if_pos h
  have hcycle : ∃ (e : Sid) (frame : List Int), d.cycle hz = e.appendRing frame Config.ringSamples ∧ e.ring = d.ring ∧
      e.sampleAcc = d.sampleAcc + Config.sampleRate - hz := by
    rw [Sid.cycle, hstep]
    exact ⟨_, _, rfl, rfl, rfl⟩
  obtain ⟨e, frame, he, hring, hacc⟩ := hcycle
  rw [he, Sid.appendRing, hring, ← hacc]
  refine ⟨by split_ifs <;> rfl, frame, fun hlt => ?_, fun heq => ?_⟩
  · rw [if_neg (by simpa using hlt)]
    exact ⟨rfl, rfl⟩
  · rw [if_pos (by simp [heq])]
    exact ⟨rfl, rfl⟩

/-- Settles O51: a line of sound is cycles of the engine, each of which keeps the registers. -/
theorem samplesAndRingBuffer : Obligations.SamplesAndRingBuffer := by
  refine ⟨fun s => ⟨_, rfl, soundLine_regs s⟩, fun d hz => ⟨Sid.cycle_idle, Sid.cycle_due⟩⟩

end Sys2Proof.Machine
end

section
/-! SUPPORT. The statements about the line loop (60_exceptions R440 to R442, 62_video_chip R630 to R632): when the core moves, the
step is the action of its place in the loop. -/

namespace Sys2Proof.Machine

/-- When the core moves next, the step is its action (R440, R461). -/
theorem step_of_atCore {s : State} (h : AtCore s) : step s = coreStep s := by
  obtain ⟨hrun, hcall, hhost⟩ := h
  simp [step, machineStep, boundaryStep, hrun, hcall, hhost]

/-- Settles O52: each place of the loop is one action of the core. -/
theorem lineLoopOrdersItsActions : Obligations.LineLoopOrdersItsActions := by
  intro s hs
  rw [step_of_atCore hs]
  refine ⟨fun budget hphase => ?_, fun budget hphase => ?_, fun hphase => ?_, fun hphase => ?_⟩ <;> rw [coreStep, hphase]
  · exact ⟨fun hlt => if_pos hlt, fun hle => if_neg hle.not_gt⟩
  · exact ⟨fun hlt => if_pos hlt, fun hle => if_neg hle.not_gt⟩

/-! The start of a line. -/

theorem toNat_nextRaster (r : BitVec 9) : (nextRaster r).toNat = (r.toNat + 1) % 312 := by
  rw [nextRaster, BitVec.toNat_ofNat]
  omega

theorem Vic.latch_nextLine_zero (v : Vic) :
    v.nextLine.latch.getLsbD 0 = (v.latch.getLsbD 0 || decide (v.nextLine.raster = v.compare)) := by
  by_cases h : nextRaster v.raster = v.compare <;> simp [Vic.nextLine, h]

/-- A raster match sets latch bit 0 alone (R631). -/
theorem Vic.latch_nextLine_succ (v : Vic) {k : Nat} (hk : 1 ≤ k) : v.nextLine.latch.getLsbD k = v.latch.getLsbD k := by
  have hone : (1#4).getLsbD k = false := by simp [BitVec.getLsbD_one]; omega
  by_cases h : nextRaster v.raster = v.compare <;> simp [Vic.nextLine, h, hone]

/-- A bad line, by the numbers of the raster and of control 1 (R632). -/
theorem Vic.badLine_iff (v : Vic) (r : BitVec 9) :
    v.badLine r = true ↔
      r.toNat % 8 = (v.reg 0x11).toNat % 8 ∧ 0x30 ≤ r.toNat ∧ r.toNat ≤ 0xF7 ∧ (v.reg 0x11).getLsbD 4 = true := by
  have hscroll : r.extractLsb' 0 3 = v.yscroll ↔ r.toNat % 8 = (v.reg 0x11).toNat % 8 := by
    rw [← BitVec.toNat_inj, Vic.yscroll, toNat_lowBits, toNat_lowBits]
    rfl
  simp [Vic.badLine, Vic.den, hscroll, and_assoc]

/-- The loop's place after the start of a line (R440, R632). -/
theorem phase_startLine (s : State) :
    (s.vic.nextLine.badLine s.vic.nextLine.raster = true → s.cfg.badlineCycles ≠ 0 →
      (startLine s).phase = .lastBatch (s.cfg.lineCycles - s.cfg.badlineCycles)) ∧
    (¬s.vic.nextLine.badLine s.vic.nextLine.raster = true ∨ s.cfg.badlineCycles = 0 →
      (startLine s).phase = .firstBatch s.cfg.lineCycles) := by
  constructor
  · intro hbad hcost
    simp [startLine, Vic.stolen, hbad, hcost]
  · rintro (hgood | hfree)
    · simp [startLine, Vic.stolen, hgood]
    · simp [startLine, Vic.stolen, hfree]

/-- Settles O39: the step is `startLine`, and a bad line is read off the new raster. -/
theorem rasterAdvancesAndBadLinesSteal : Obligations.RasterAdvancesAndBadLinesSteal := by
  intro s hs hphase
  have hstep : step s = .next (startLine s) := by rw [step_of_atCore hs, coreStep, hphase]
  refine ⟨startLine s, hstep, toNat_nextRaster _, s.vic.latch_nextLine_zero, fun k hk => s.vic.latch_nextLine_succ hk, rfl, ?_,
    rfl, rfl, ⟨⟨rfl, rfl, rfl, rfl⟩, rfl, rfl, rfl, rfl, rfl, rfl, rfl⟩, ⟨fun _ => rfl, fun _ => rfl, rfl⟩, rfl, rfl, rfl, rfl, rfl⟩
  have hplace := phase_startLine s
  rw [Vic.badLine_iff] at hplace
  exact hplace

end Sys2Proof.Machine
end

section
/-! SUPPORT. The statements about the host's acts and its injected subroutines (60_exceptions R461 to R465): an act on a running
core, and that no instruction moves the line loop, ends a call, or touches the host's plan. -/

namespace Sys2Proof.Machine

/-! The host's acts. -/

theorem hostAct_of_running {s : State} (act : HostAct) (hrun : s.halted = false) (hcall : s.inject = none) :
    hostAct act s = runAct act s := by
  simp [hostAct, hrun, hcall]

theorem step_of_hostTurn {s : State} {act : HostAct} {rest : List HostTurn} (hrun : s.halted = false) (hcall : s.inject = none)
    (hplan : s.hostPlan = .host act :: rest) : step s = .next (hostStep act { s with hostPlan := rest }) := by
  simp only [step, machineStep, boundaryStep, hrun, hcall, hplan, Bool.false_eq_true, if_false]

/-- On a running core the act at the head of the host's plan is the step (R461). -/
theorem step_of_hostAct {s t : State} {act : HostAct} {rest : List HostTurn} (hrun : s.halted = false) (hcall : s.inject = none)
    (hplan : s.hostPlan = .host act :: rest) (hact : runAct act { s with hostPlan := rest } = .ok t) : step s = .next t := by
  rw [step_of_hostTurn hrun hcall hplan, hostStep,
    hostAct_of_running (s := { s with hostPlan := rest }) act hrun hcall, hact]

/-- A refused act changes nothing (R461). -/
theorem step_of_refusedAct {s : State} {act : HostAct} {rest : List HostTurn} {e : HostRefusal} (hrun : s.halted = false)
    (hcall : s.inject = none) (hplan : s.hostPlan = .host act :: rest)
    (hact : runAct act { s with hostPlan := rest } = .error e) : step s = .next { s with hostPlan := rest } := by
  rw [step_of_hostTurn hrun hcall hplan, hostStep,
    hostAct_of_running (s := { s with hostPlan := rest }) act hrun hcall, hact]

/-! Program images. -/

theorem storeBytes_state (a : Word) (bytes : List Byte) (s : State) :
    storeBytes a bytes s = { s with ram := (storeBytes a bytes s).ram } := by
  induction bytes generalizing a s with
  | nil => rfl
  | cons v rest ih => exact ih (a + 1#16) (s.setRam a v)

/-- An image reaches only the addresses of its bytes (R464). -/
theorem read_storeBytes_ne {a b : Word} {bytes : List Byte} (hb : ∀ k, k < bytes.length → b ≠ a + BitVec.ofNat 16 k) (s : State) :
    (storeBytes a bytes s).ram.read b.toNat = s.ram.read b.toNat := by
  induction bytes generalizing a s with
  | nil => rfl
  | cons v rest ih =>
    have hrest (k : Nat) (hk : k < rest.length) : b ≠ a + 1#16 + BitVec.ofNat 16 k := by
      have h := hb (k + 1) (Nat.succ_lt_succ hk)
      rwa [Nat.add_comm, BitVec.ofNat_add, ← BitVec.add_assoc] at h
    have hhead : b.toNat ≠ a.toNat := by
      have h := hb 0 (Nat.succ_pos _)
      rwa [BitVec.add_zero, Ne, ← BitVec.toNat_inj] at h
    exact (ih hrest _).trans (Memory.read_write_ne _ hhead v)

/-- An image that does not wrap on itself stands in RAM from its load address on (R464). -/
theorem read_storeBytes {bytes : List Byte} (hlen : bytes.length ≤ 0x10000) (a : Word) (s : State) {k : Nat}
    (hk : k < bytes.length) : (storeBytes a bytes s).ram.read (a + BitVec.ofNat 16 k).toNat = bytes[k] := by
  induction bytes generalizing a s k with
  | nil => cases hk
  | cons v rest ih =>
    rw [List.length_cons] at hlen hk
    cases k with
    | zero =>
      have hrest (j : Nat) (hj : j < rest.length) : a ≠ a + 1#16 + BitVec.ofNat 16 j := by bv_omega
      rw [BitVec.add_zero]
      exact (read_storeBytes_ne hrest _).trans (Memory.read_write_self _ _ v)
    | succ k =>
      have haddr : a + BitVec.ofNat 16 (k + 1) = a + 1#16 + BitVec.ofNat 16 k := by bv_omega
      rw [haddr]
      exact ih (by omega) (a + 1#16) (s.setRam a v) (by omega)

theorem toNat_ramWord (s : State) (a : Word) :
    (ramWord s a).toNat = (s.ram.read a.toNat).toNat + 256 * (s.ram.read (a + 1#16).toNat).toNat := by
  rw [ramWord, wordOf, BitVec.toNat_append]
  rw [← Nat.shiftLeft_add_eq_or_of_lt (BitVec.isLt _), Nat.shiftLeft_eq]
  omega

/-- The bytes of an image of memory (R465): they stand in RAM from the start address on. -/
theorem saveImage_eq (s : State) :
    saveImage s = loByte (ramWord s s.cfg.saveStartPtr) :: hiByte (ramWord s s.cfg.saveStartPtr) ::
      (List.range ((ramWord s s.cfg.saveEndPtr).toNat - (ramWord s s.cfg.saveStartPtr).toNat)).map
        (fun i => s.ram.read ((ramWord s s.cfg.saveStartPtr).toNat + i)) := rfl

theorem loByte_eq (w : Word) : loByte w = BitVec.ofNat 8 (w.toNat % 256) := by
  rw [← toNat_loByte, BitVec.ofNat_toNat, BitVec.setWidth_eq]

theorem hiByte_eq (w : Word) : hiByte w = BitVec.ofNat 8 (w.toNat / 256) := by
  rw [← toNat_hiByte, BitVec.ofNat_toNat, BitVec.setWidth_eq]

/-- Settles O55: each act's `runAct`, for an image by the two rules of `storeBytes`. -/
theorem hostActsTouchPCOrRam : Obligations.HostActsTouchPCOrRam := by
  intro s rest hrun hcall
  refine ⟨fun addr hplan => ?_, fun image hshort hplan => ?_, fun lo hi payload hplan hlen => ?_, fun hplan => ⟨?_, ?_⟩⟩
  · exact step_of_hostAct hrun hcall hplan rfl
  · refine step_of_refusedAct (e := .shortImage) hrun hcall hplan ?_
    match image, hshort with
    | [], _ => rfl
    | [_], _ => rfl
  · exact ⟨_, step_of_hostAct hrun hcall hplan rfl, storeBytes_state (wordOf lo hi) payload { s with hostPlan := rest },
      fun k hk => read_storeBytes hlen _ _ hk, fun a ha => read_storeBytes_ne ha _⟩
  · exact step_of_hostAct hrun hcall hplan rfl
  · have hdeliver : deliveries s = [.image (saveImage s)] := by simp [deliveries, hrun, hcall, hplan]
    intro word start stop
    have hstart : (ramWord s s.cfg.saveStartPtr).toNat = start := toNat_ramWord _ _
    have hstop : (ramWord s s.cfg.saveEndPtr).toNat = stop := toNat_ramWord _ _
    rw [hdeliver, saveImage_eq, loByte_eq, hiByte_eq, hstart, hstop]
    refine ⟨_, rfl, ?_, fun k hk => ?_⟩
    · rw [List.length_map, List.length_range]
      split_ifs <;> omega
    · rw [List.getElem_map, List.getElem_range]

/-! An injected subroutine. -/

/-- What of the run no instruction writes: the place in the loop, the call, the host's plan. -/
def State.course (s : State) : Phase × Option Saved × List HostTurn := (s.phase, s.inject, s.hostPlan)

@[simp] theorem busRead_course (a : Word) (s : State) : (busRead a s).2.course = s.course := by simp [State.course]

@[simp] theorem busWrite_course (a : Word) (v : Byte) (s : State) : (busWrite a v s).course = s.course := by simp [State.course]

/-- The instruction goes on, and the course of the run is that of `s`. -/
def KeepsCourse (s : State) (r : Result) : Prop := NextHas (fun t => t.course = s.course) r

theorem keepsCourse_implied {f : State → State} (hf : ∀ t, (f t).course = t.course) (op : Byte) (s : State) :
    KeepsCourse s (impliedInstr op f s) :=
  ⟨_, rfl, hf (stepOver .impl s)⟩

theorem readOperand_course (m : Mode) (s : State) : (readOperand m s).2.course = s.course := by
  unfold readOperand
  split
  · rfl
  · rfl
  · exact busRead_course _ _

theorem keepsCourse_read {f : Byte → State → State} (hf : ∀ v t, (f v t).course = t.course) (op : Byte) (m : Mode) (s : State) :
    KeepsCourse s (readInstr op m f s) :=
  ⟨_, rfl, (hf _ _).trans (readOperand_course m (stepOver m s))⟩

theorem keepsCourse_store (op : Byte) (m : Mode) (v : State → Byte) (s : State) : KeepsCourse s (storeInstr op m v s) :=
  ⟨_, rfl, busWrite_course _ _ (stepOver m s)⟩

theorem modifyWrite_course (a : Word) (old new : Byte) (s : State) : (modifyWrite a old new s).course = s.course := by
  unfold modifyWrite
  split <;> simp

theorem keepsCourse_modify (op : Byte) (m : Mode) (f : Byte → Status → Byte × Status) (s : State) :
    KeepsCourse s (modifyInstr op m f s) := by
  unfold modifyInstr
  simp only
  split
  · exact ⟨_, rfl, rfl⟩
  · exact ⟨_, rfl, (modifyWrite_course _ _ _ _).trans (busRead_course _ (stepOver m s))⟩

theorem keepsCourse_branch (op d : Byte) (c : Status → Bool) (s : State) : KeepsCourse s (branchInstr op d c s) := by
  unfold branchInstr
  simp only
  split <;> exact ⟨_, rfl, rfl⟩

@[simp] theorem push_course (v : Byte) (s : State) : (push v s).course = s.course := by rw [push_eq]; rfl

@[simp] theorem pushWord_course (w : Word) (s : State) : (pushWord w s).course = s.course := by rw [pushWord_eq]; rfl

@[simp] theorem pull_course (s : State) : (pull s).2.course = s.course := by rw [pull_eq]; rfl

@[simp] theorem pullWord_course (s : State) : (pullWord s).2.course = s.course := by rw [pullWord_eq]; rfl

@[simp] theorem pullStatus_course (s : State) : (pullStatus s).course = s.course := by rw [pullStatus_eq]; rfl

@[simp] theorem returnInterrupt_course (s : State) : (returnInterrupt s).course = s.course := by rw [returnInterrupt_eq]; rfl

theorem takeInterrupt_course (b : Bool) (vec : Word) (s : State) : (takeInterrupt b vec s).course = s.course := by
  rw [takeInterrupt_eq]
  exact (busRead_course _ _).trans (busRead_course _ _)

theorem fetch_course (s : State) : (fetch s).2.course = s.course := by
  unfold fetch
  simp only
  split <;> simp

/-- No instruction moves the line loop, ends a call, or touches the host's plan. -/
theorem keepsCourse_exec (i : Instr) (s : State) : KeepsCourse s (exec i s) := by
  rw [exec_meaning]
  cases i.mnemonic <;> simp only [meaning]
  case lda | ldx | ldy | adc | sbc | cmp | cpx | cpy | and | ora | eor | bit =>
    refine keepsCourse_read ?_ _ _ _
    exact fun _ _ => rfl
  case sta | stx | sty => exact keepsCourse_store _ _ _ _
  case inc | dec | asl | lsr | rol | ror => exact keepsCourse_modify _ _ _ _
  case bcc | bcs | beq | bmi | bne | bpl | bvc | bvs => exact keepsCourse_branch _ _ _ _
  case tax | tay | txa | tya | tsx | txs | inx | iny | dex | dey | nop | clc | cld | cli | clv | sec | sed | sei =>
    refine keepsCourse_implied ?_ _ _
    exact fun _ => rfl
  case pha | php =>
    refine keepsCourse_implied ?_ _ _
    exact fun t => push_course _ t
  case pla =>
    refine keepsCourse_implied ?_ _ _
    exact fun t => pull_course t
  case plp => exact keepsCourse_implied pullStatus_course _ _
  case rts =>
    refine keepsCourse_implied ?_ _ _
    exact fun t => pullWord_course t
  case rti => exact keepsCourse_implied returnInterrupt_course _ _
  case brk => exact ⟨_, rfl, takeInterrupt_course _ _ (stepOver _ s)⟩
  case jsr => exact ⟨_, rfl, pushWord_course _ (stepOver _ s)⟩
  case jmp =>
    split
    · exact ⟨_, rfl, (busRead_course _ _).trans (busRead_course _ (stepOver _ s))⟩
    · exact ⟨_, rfl, rfl⟩
  case illegal => exact ⟨_, rfl, rfl⟩

/-- While a call runs the step is its instruction (R462). -/
theorem step_of_injected {s u : State} {saved : Saved} (hrun : s.halted = false) (hcall : s.inject = some saved)
    (hu : exec (fetch s).1 (fetch s).2 = .next u) :
    step s =
      (let w : State := { u with lineCycles := s.lineCycles, sinceCheck := s.sinceCheck }
       if (fetch s).1 = .rts ∧ u.sp = saved.sp then .next (w.restore saved) else .next w) := by
  simp only [step, machineStep, injectedStep, hrun, hcall, hu, Bool.false_eq_true, if_false]

theorem step_of_inject (s : State) (rest : List HostTurn) (addr : Word) (a x y : Byte) (hrun : s.halted = false)
    (hcall : s.inject = none) (hplan : s.hostPlan = .host (.inject addr a x y) :: rest) :
    step s = .next
      { s with
        a := a, x := x, y := y, sp := s.sp - 2#8, pc := addr, inject := some s.saved, hostPlan := rest
        ram := (s.ram.write (stackAddr s.sp).toNat (hiByte (s.pc - 1#16))).write (stackAddr (s.sp - 1#8)).toNat
          (loByte (s.pc - 1#16)) } := by
  refine step_of_hostAct hrun hcall hplan ?_
  rw [runAct, startInject, pushWord_eq]
  rfl

/-- Settles O56: the start writes the two bytes of a JSR; a running call's step is its instruction, which keeps the course of the
run; and an RTS raises SP by two. -/
theorem injectedSubroutineRestoresRegisters : Obligations.InjectedSubroutineRestoresRegisters := by
  refine ⟨fun s rest addr a x y hrun hcall hplan => ?_, fun s saved hrun hcall => ?_⟩
  · have hne : (stackAddr s.sp).toNat ≠ (stackAddr (s.sp - 1#8)).toNat := toNat_stackAddr_ne (by bv_omega)
    exact ⟨_, step_of_inject s rest addr a x y hrun hcall hplan, rfl, rfl, rfl, rfl, rfl, rfl, rfl,
      (Memory.read_write_ne _ hne _).trans (Memory.read_write_self _ _ _), Memory.read_write_self _ _ _,
      fun k h0 h1 => (Memory.read_write_ne _ h1 _).trans (Memory.read_write_ne _ h0 _), fun _ => rfl, rfl,
      ⟨rfl, rfl, rfl, rfl, rfl, rfl⟩, rfl, rfl, rfl, rfl⟩
  · obtain ⟨u, hu, hcourse⟩ := keepsCourse_exec (fetch s).1 (fetch s).2
    rw [fetch_course] at hcourse
    obtain ⟨hphase, hinject, hplan⟩ : u.phase = s.phase ∧ u.inject = s.inject ∧ u.hostPlan = s.hostPlan := by
      simpa [State.course] using hcourse
    have hsp (hrts : (fetch s).1 = .rts) : u.sp = (fetch s).2.sp + 2#8 := by
      rw [hrts, exec_rts] at hu
      cases hu
      rfl
    refine ⟨u, hu, hphase, hinject.trans hcall, hplan, fun hrts hend => ?_, fun hgoes => ?_⟩
    · rw [step_of_injected hrun hcall hu]
      exact if_pos ⟨hrts, (hsp hrts).trans hend⟩
    · rw [step_of_injected hrun hcall hu]
      refine if_neg ?_
      rintro ⟨hrts, hend⟩
      rcases hgoes with hother | hother
      · exact hother hrts
      · exact hother ((hsp hrts).symm.trans hend)

end Sys2Proof.Machine
end

section
/-! SUPPORT. The statements about drawing a raster line (62_video_chip R650 to R677): the bits of the collision masks, the three
cases of `drawRasterline`, and a pixel of a standard text screen. -/

namespace Sys2Proof.Machine

/-! The collision masks. -/

/-- A bit of masks joined under a condition comes from one of them. -/
theorem getLsbD_foldl_or (p : Nat → Bool) (mask : Nat → Byte) (l : List Nat) (acc : Byte) (n : Nat) :
    (l.foldl (fun acc x => if p x then acc ||| mask x else acc) acc).getLsbD n = true ↔
      acc.getLsbD n = true ∨ ∃ x ∈ l, p x = true ∧ (mask x).getLsbD n = true := by
  induction l generalizing acc with
  | nil => simp
  | cons x l ih =>
    rw [List.foldl_cons, ih]
    by_cases hp : p x = true <;> simp [hp, or_assoc]

theorem getLsbD_spriteMask (s : State) (r x : Nat) {n : Nat} (hn : n < 8) :
    (spriteMask s r x).getLsbD n = true ↔ (spritePixel s n r x).isSome = true := by
  have hbit (m : Nat) : (1#8 <<< m).getLsbD n = true ↔ m = n := by
    simp [hn]
    omega
  have hmem : n ∈ [0, 1, 2, 3, 4, 5, 6, 7] := by
    rw [← List.mem_range (n := 8)] at hn
    exact hn
  rw [spriteMask, getLsbD_foldl_or (fun m => (spritePixel s m r x).isSome)]
  simp only [hbit, BitVec.getLsbD_zero, Bool.false_eq_true, false_or]
  exact ⟨fun ⟨m, _, hm, he⟩ => he ▸ hm, fun h => ⟨n, hmem, h, rfl⟩⟩

theorem twoOrMore_iff : ∀ (m : Byte) (n : Fin 8), m.getLsbD n = true →
    (twoOrMore m = true ↔ ∃ k : Fin 8, k ≠ n ∧ m.getLsbD k = true) := by
  decide

theorem foldl_pair {α β : Type} (f : α → Nat → α) (g : β → Nat → β) (l : List Nat) (acc : α × β) :
    l.foldl (fun acc x => (f acc.1 x, g acc.2 x)) acc = (l.foldl f acc.1, l.foldl g acc.2) := by
  induction l generalizing acc with
  | nil => rfl
  | cons x l ih => exact ih _

/-- The masks of a line join those of its columns (R676). -/
theorem lineCollisions_eq (s : State) (r : Nat) :
    lineCollisions s r =
      ((List.range 320).foldl (fun acc x => if twoOrMore (spriteMask s r x) then acc ||| spriteMask s r x else acc) 0#8,
       (List.range 320).foldl (fun acc x => if (graphicsPixel s r x).fg then acc ||| spriteMask s r x else acc) 0#8) :=
  foldl_pair (fun acc x => if twoOrMore (spriteMask s r x) then acc ||| spriteMask s r x else acc)
    (fun acc x => if (graphicsPixel s r x).fg then acc ||| spriteMask s r x else acc) _ _

/-- Settles O40: a bit of a line's mask is a column's, and there the sprite's pixel. -/
theorem collisionMasksNameTheOverlappingSprites : Obligations.CollisionMasksNameTheOverlappingSprites := by
  intro s r n hn
  rw [lineCollisions_eq]
  have hzero : (0#8).getLsbD n = true ↔ False := by simp
  constructor
  · rw [getLsbD_foldl_or (fun x => twoOrMore (spriteMask s r x)), hzero, false_or]
    constructor
    · rintro ⟨x, hx, htwo, hbit⟩
      obtain ⟨m, hm, hmbit⟩ := (twoOrMore_iff _ ⟨n, hn⟩ hbit).mp htwo
      exact ⟨x, List.mem_range.mp hx, (getLsbD_spriteMask s r x hn).mp hbit, m, m.isLt, fun he => hm (Fin.ext he),
        (getLsbD_spriteMask s r x m.isLt).mp hmbit⟩
    · rintro ⟨x, hx, hpixel, m, hm, hne, hother⟩
      have hbit := (getLsbD_spriteMask s r x hn).mpr hpixel
      have htwo := (twoOrMore_iff _ ⟨n, hn⟩ hbit).mpr
        ⟨⟨m, hm⟩, fun he => hne (congrArg Fin.val he), (getLsbD_spriteMask s r x hm).mpr hother⟩
      exact ⟨x, List.mem_range.mpr hx, htwo, hbit⟩
  · rw [getLsbD_foldl_or (fun x => (graphicsPixel s r x).fg), hzero, false_or]
    constructor
    · rintro ⟨x, hx, hfg, hbit⟩
      exact ⟨x, List.mem_range.mp hx, (getLsbD_spriteMask s r x hn).mp hbit, hfg⟩
    · rintro ⟨x, hx, hpixel, hfg⟩
      exact ⟨x, List.mem_range.mpr hx, hfg, (getLsbD_spriteMask s r x hn).mpr hpixel⟩

/-! The three cases of a line. -/

theorem drawRasterline_outside {s : State} (h : ¬(0x33 ≤ s.vic.raster.toNat ∧ s.vic.raster.toNat ≤ 0xFA)) :
    drawRasterline s =
      { s with vic := { s.vic with border := putAt s.vic.raster.toNat (s.vic.colour 0x20) s.vic.border } } := by
  have hout : inFrame s.vic.raster.toNat = false := by simpa [inFrame] using h
  simp only [drawRasterline, hout, Bool.false_eq_true, if_false]

/-- The chip with a line's border entry and frame row drawn, without its collisions (R650). -/
def Vic.drawn (s : State) : Vic :=
  { s.vic with
    border := putAt s.vic.raster.toNat (s.vic.colour 0x20) s.vic.border
    frame := putAt (s.vic.raster.toNat - 0x33) ((List.range 320).map (shownPixel s s.vic.raster.toNat)) s.vic.frame }

theorem drawRasterline_inside {s : State} (h : 0x33 ≤ s.vic.raster.toNat ∧ s.vic.raster.toNat ≤ 0xFA) :
    drawRasterline s =
      { s with vic :=
          if s.vic.den then
            (Vic.drawn s).collide (lineCollisions s s.vic.raster.toNat).1 (lineCollisions s s.vic.raster.toNat).2
          else Vic.drawn s } := by
  have hin : inFrame s.vic.raster.toNat = true := by simpa [inFrame] using h
  simp only [drawRasterline, hin, if_true]
  cases s.vic.den <;> rfl

/-- The frame row of a line, whatever its collisions. -/
theorem frame_drawRasterline {s : State} (h : 0x33 ≤ s.vic.raster.toNat ∧ s.vic.raster.toNat ≤ 0xFA) :
    (drawRasterline s).vic.frame =
      putAt (s.vic.raster.toNat - 0x33) ((List.range 320).map (shownPixel s s.vic.raster.toNat)) s.vic.frame := by
  rw [drawRasterline_inside h]
  cases s.vic.den <;> rfl

theorem border_drawRasterline (s : State) :
    (drawRasterline s).vic.border = putAt s.vic.raster.toNat (s.vic.colour 0x20) s.vic.border := by
  by_cases h : 0x33 ≤ s.vic.raster.toNat ∧ s.vic.raster.toNat ≤ 0xFA
  · rw [drawRasterline_inside h]
    cases s.vic.den <;> rfl
  · rw [drawRasterline_outside h]

theorem framePixel_drawRasterline {s : State} (h : 0x33 ≤ s.vic.raster.toNat ∧ s.vic.raster.toNat ≤ 0xFA) {x : Nat} (hx : x < 320) :
    (drawRasterline s).vic.framePixel (s.vic.raster.toNat - 0x33) x = shownPixel s s.vic.raster.toNat x := by
  simp [Vic.framePixel, frame_drawRasterline h, lookAt_putAt_self, hx]

theorem framePixel_drawRasterline_ne {s : State} (h : 0x33 ≤ s.vic.raster.toNat ∧ s.vic.raster.toNat ≤ 0xFA) {y : Nat}
    (hy : y ≠ s.vic.raster.toNat - 0x33) (x : Nat) : (drawRasterline s).vic.framePixel y x = s.vic.framePixel y x := by
  simp [Vic.framePixel, frame_drawRasterline h, lookAt_putAt_ne hy]

/-- What the collisions of a line leave in the latch (R677). -/
theorem Vic.latch_collide (v : Vic) (ss sd : Byte) :
    ((v.collide ss sd).latch.getLsbD 2 = true ↔ v.latch.getLsbD 2 = true ∨ (ss ≠ 0 ∧ v.enable.getLsbD 2 = true)) ∧
    ((v.collide ss sd).latch.getLsbD 1 = true ↔ v.latch.getLsbD 1 = true ∨ (sd ≠ 0 ∧ v.enable.getLsbD 1 = true)) ∧
    (v.collide ss sd).latch.getLsbD 0 = v.latch.getLsbD 0 ∧ (v.collide ss sd).latch.getLsbD 3 = v.latch.getLsbD 3 := by
  have hss : (ss != 0#8 && v.enable.getLsbD 2) = true ↔ ss ≠ 0 ∧ v.enable.getLsbD 2 = true := by simp
  have hsd : (sd != 0#8 && v.enable.getLsbD 1) = true ↔ sd ≠ 0 ∧ v.enable.getLsbD 1 = true := by simp
  rw [← hss, ← hsd, Vic.collide]
  cases ss != 0#8 && v.enable.getLsbD 2 <;> cases sd != 0#8 && v.enable.getLsbD 1 <;> simp

/-- Settles O41: the three cases of `drawRasterline`, and the latch after the collisions. -/
theorem drawingALine : Obligations.DrawingALine := by
  intro s t r masks border
  refine ⟨?_, ?_, ?_, fun hout => ?_, fun hin y x hy => framePixel_drawRasterline_ne hin hy x, fun hin hden x hx => ?_,
    fun ⟨h1, h2, hden⟩ => ?_, fun hno => ?_⟩
  · by_cases h : 0x33 ≤ r ∧ r ≤ 0xFA
    · simp only [t, drawRasterline_inside h]
      cases s.vic.den <;> rfl
    · simp only [t, drawRasterline_outside h]
  · simp only [Vic.borderAt, t, border_drawRasterline, r, lookAt_putAt_self]
    rfl
  · intro q hq
    simp only [Vic.borderAt, t, border_drawRasterline, lookAt_putAt_ne (show q ≠ s.vic.raster.toNat from hq)]
  · simp only [t, drawRasterline_outside hout]
  · have hshown : shownPixel s r x = border := by
      have : s.vic.den = false := hden
      simp [shownPixel, this, border, Vic.colour]
    exact (framePixel_drawRasterline hin hx).trans hshown
  · have ht : t.vic = (Vic.drawn s).collide masks.1 masks.2 := by
      simp only [t, drawRasterline_inside ⟨h1, h2⟩]
      exact if_pos hden
    rw [ht]
    exact ⟨rfl, rfl, (Vic.drawn s).latch_collide masks.1 masks.2⟩
  · by_cases h : 0x33 ≤ r ∧ r ≤ 0xFA
    · have hden : ¬s.vic.den = true := fun hden => hno ⟨h.1, h.2, hden⟩
      have ht : t.vic = Vic.drawn s := by
        simp only [t, drawRasterline_inside h]
        exact if_neg hden
      rw [ht]
      exact ⟨rfl, rfl, rfl⟩
    · simp only [t, drawRasterline_outside h, and_self]

/-! A standard text screen. -/

theorem spritePixel_of_disabled {s : State} (h : s.vic.reg 0x15 = 0x00#8) (n r x : Nat) : spritePixel s n r x = none := by
  simp [spritePixel, spriteRow, Vic.spriteBit, h]

/-- With no sprite enabled a pixel under the border is the graphics (R675). -/
theorem layeredPixel_of_disabled {s : State} (h : s.vic.reg 0x15 = 0x00#8) (r x : Nat) :
    layeredPixel s r x = (graphicsPixel s r x).colour := by
  simp [layeredPixel, paintSprite, spritePixel_of_disabled h]

/-- The graphics of a standard text screen (R651, R654, R656). -/
theorem graphicsPixel_standardText {s : State} (h1 : s.vic.reg 0x11 = 0x1B#8) (h2 : s.vic.reg 0x16 = 0x08#8) {y x : Nat} (hy : y < 200) :
    graphicsPixel s (0x33 + y) x =
      (let k := y / 8 * 40 + x / 8
       standardChar s
        { sc := videoRead s (s.vic.screenBase + k), col := s.color.read k, k := k, line := y % 8, b := x % 8 }
        (s.color.read k)) := by
  have hmode : s.vic.ecm = false ∧ s.vic.bmm = false ∧ s.vic.mcm = false := by
    simp [Vic.ecm, Vic.bmm, Vic.mcm, h1, h2]
  obtain ⟨hecm, hbmm, hmcm⟩ := hmode
  have hys : s.vic.yscroll.toNat = 3 := by rw [Vic.yscroll, h1]; rfl
  have hxs : s.vic.xscroll.toNat = 0 := by rw [Vic.xscroll, h2]; rfl
  have hrow : ¬(0x33 + y < 0x30 + 3 ∨ 0x30 + 3 + 199 < 0x33 + y ∨ x < 0) := by omega
  have hg : 0x33 + y - 0x30 - 3 = y := by omega
  simp only [graphicsPixel, Vic.invalidMode, cellPixel, hecm, hbmm, hmcm, hys, hxs, hg, if_neg hrow, Nat.sub_zero]
  rfl

/-- Settles O42: the row drawn holds the shown pixels, which the border does not cover and no sprite hides. -/
theorem standardTextPixels : Obligations.StandardTextPixels := by
  intro s y x hy hx hr h1 h2 h3 k vm cb d
  have hin : 0x33 ≤ s.vic.raster.toNat ∧ s.vic.raster.toNat ≤ 0xFA := by omega
  have hrow : s.vic.raster.toNat - 0x33 = y := by omega
  have hshown : shownPixel s (0x33 + y) x = layeredPixel s (0x33 + y) x := by
    simp [shownPixel, Vic.inBorder, Vic.den, Vic.rsel, Vic.csel, h1, h2]
  have hpixel := framePixel_drawRasterline hin hx
  rw [hrow, hr, hshown, layeredPixel_of_disabled h3, graphicsPixel_standardText h1 h2 hy] at hpixel
  rw [hpixel]
  exact apply_ite Pixel.colour _ _ _

end Sys2Proof.Machine
end
